-- ==== Sys2Proof/Word.lean ====
section
/-! DEFINITION. The word types of the block: a register or queue byte, a pulse descriptor, a 32-bit word. -/

namespace Sys2Proof

/-- A register, queue, font or colour byte. -/
abbrev Byte := BitVec 8

/-- A 16-bit pulse descriptor (R120). -/
abbrev Descriptor := BitVec 16

/-- A 32-bit framebuffer or descriptor word (R44, R121). -/
abbrev Word := BitVec 32

end Sys2Proof
end

