-- ==== Sys2Proof/Syntax.lean ====
section
/-! DEFINITION. The syntax of the block: the instructions of spec/opcode_table.json (one constructor per row), the named
GDP registers, scan formats, and the moves of the agents and of the host. -/

namespace Sys2Proof

/-- The instructions, one constructor per row of spec/opcode_table.json, in its order. A field is a bit field of the
row; a CHAR row keeps the whole byte, which is the glyph code (R115). -/
inductive Instr where
  | pen
  | eraser
  | pendown
  | penup
  | cls
  | xyrst
  | clsxy
  | reset
  | nop08 (reserved : BitVec 1)
  | cursor
  | nop0B
  | nop0C (reserved : BitVec 2)
  | vec (sy sx a : BitVec 1)
  | vecEq (sy sx a : BitVec 1)
  | char20 (glyph : Byte)
  | char40 (glyph : Byte)
  | svec (dx dy : BitVec 2) (sy sx a : BitVec 1)
  | pulse (lvl : BitVec 1) (dur : BitVec 10)
  | pulseDs (lvl : BitVec 1) (dur : BitVec 10)
  | page (disp draw : BitVec 2) (ignored : BitVec 4)
  deriving DecidableEq, Repr

/-- The GDP registers of R34 that the block reads or writes. -/
inductive Reg where
  | status | ctrl1 | ctrl2 | csize | deltax | deltay | xmsb | xlsb | ymsb | ylsb
  deriving DecidableEq, Repr, Inhabited

/-- The offset of a GDP register from GDP_BASE (R34). PRESUMED by the spec itself: the emulated chip's map (log 11). -/
def Reg.offset : Reg → Nat
  | .status => 0x0
  | .ctrl1 => 0x1
  | .ctrl2 => 0x2
  | .csize => 0x3
  | .deltax => 0x5
  | .deltay => 0x7
  | .xmsb => 0x8
  | .xlsb => 0x9
  | .ymsb => 0xA
  | .ylsb => 0xB

/-- The GDP registers, in the order of their offsets. -/
def Reg.all : List Reg :=
  [.status, .ctrl1, .ctrl2, .csize, .deltax, .deltay, .xmsb, .xlsb, .ymsb, .ylsb]

/-- A PatternBlock (R123): one or two descriptor words and a repeat count. -/
structure PatternBlock where
  words : List Word
  count : Nat
  deriving DecidableEq, Repr

/-- A ScanFormat (R123, R150): an ordered list of PatternBlocks. -/
abbrev ScanFormat := List PatternBlock

/-- The scan formats of the ScanFormatCatalog (R10, R150): the legacy chip's timing, 640x480 VGA and the scaled 1920x1080
mode. -/
inductive FormatName where
  | legacy
  | vga
  | scaledHd
  deriving DecidableEq, Repr, Inhabited

/-- The catalogue's formats, in the order of R10. -/
def FormatName.all : List FormatName := [.legacy, .vga, .scaledHd]

/-- NUM_SCAN_FORMATS (R10). -/
def numScanFormats : Nat := 3

/-- One choice of the schedule (R18): which agent takes its next step, or what HOST does (R309). -/
inductive Move where
  /-- SYNC moves one descriptor word (R156). -/
  | sync
  /-- TG fetches a descriptor word (R157) or executes a pulse descriptor (R159, R160). -/
  | tg
  /-- SYNC_IRQ runs (R158). -/
  | syncIrq
  /-- DATA serves one line-active event (R171). -/
  | data
  /-- LUTP writes one output byte (R204). -/
  | lutp
  /-- MIRROR compares and copies the vblank flag (R305). -/
  | mirror
  /-- MIRROR serves one page byte (R304). -/
  | pageSwitch
  /-- CMD makes one access: it takes the next command byte, or does the next access of the one in progress (R16, R235). -/
  | cmdStep
  /-- CMD takes the next command byte and makes all its accesses with no other agent's step between (R301). -/
  | cmdRun
  /-- HOST sets a GDP register byte (R309, `wr NAME, v` of R126). -/
  | hostSet (r : Reg) (v : Byte)
  /-- HOST clears and sets bits of a GDP register byte in one operation (R33, R90). -/
  | hostBits (r : Reg) (clear set : Byte)
  /-- HOST reads a GDP register byte (R309); a read has no side effect (R91). -/
  | hostGet (r : Reg)
  /-- HOST enqueues a command byte on CMDQ (R309). -/
  | hostCmd (b : Byte)
  /-- HOST enqueues a page byte on PAGEQ (R309). -/
  | hostPage (b : Byte)
  /-- The bus layer receives a (register, data) pair and routes it by its register index (R300). -/
  | hostEntry (index : Nat) (v : Byte)
  /-- HOST asks for another scan format, or to write SEQ, while the sequencer runs (R162). -/
  | hostFormat (f : ScanFormat)
  deriving DecidableEq, Repr, Inhabited

end Sys2Proof
end

