-- ==== Sys2Proof/Config.lean ====
section
/-! DEFINITION. The parameters of a launch (R11, R60) and the values the spec leaves open: constants without a body. -/

namespace Sys2Proof

/-- The named parameters of R11 and REGFILE_SIZE of R10, as plain data that a launch fixes and no step changes (R60). -/
structure Params where
  /-- Which of the three formats of the catalogue SCAN_FORMAT is (R10, R150). -/
  format : FormatName
  /-- SCAN_FORMAT, the pulse tables of the chosen format (R150, D6). -/
  scanFormat : ScanFormat
  /-- PERIOD; `none` where it is not supplied, and the check that uses it is then skipped (R152). -/
  period : Option Nat
  /-- PULSE_DURATION_BIAS (D5). -/
  durationBias : Nat
  /-- TG_FIFO_DEPTH, at least 1 (D7). -/
  fifoDepth : Nat
  /-- COLOR_LUT, the entry for an unset and for a set pixel (D13). -/
  colorUnset : Byte
  colorSet : Byte
  /-- FONT, the bytes of glyph 0, then of glyph 1, ..., 5 columns each (D26); a missing byte is 0. -/
  font : List Byte
  /-- SKEW_OFFSET as a table over the primary offset u; an entry the table lacks is the default u (D28). -/
  skew : List Int
  /-- CMD7_CTRL1, CMD7_CTRL2, CMD7_CSIZE (D23). -/
  cmd7Ctrl1 : Byte
  cmd7Ctrl2 : Byte
  cmd7Csize : Byte
  /-- GDP_BASE and PAGE_REG (D35, D36). -/
  gdpBase : Nat
  pageReg : Nat
  /-- BUSY_MASK (D37). -/
  busyMask : Byte
  /-- H_REPLICATE (D15), of the output stage, which no rule reads; 3 for the scaled 1920x1080 format (R11). -/
  hReplicate : Nat
  /-- INIT_DISPLAY_PAGE and INIT_DRAW_PAGE (D39). -/
  initDisplayPage : BitVec 2
  initDrawPage : BitVec 2
  /-- REGFILE_SIZE, 128 to 256 (R33). -/
  regfileSize : Nat
  deriving DecidableEq, Repr

/-- The format chosen for this launch, OPEN (R150, D6). -/
opaque Config.format : FormatName
/-- The ScanFormatCatalog: the pulse tables of each format, OPEN (R150, D6). -/
opaque Config.catalog : FormatName → ScanFormat
/-- PERIOD of each format, OPEN (R152, D6). -/
opaque Config.period : FormatName → Option Nat
/-- PULSE_DURATION_BIAS, OPEN (D5). -/
opaque Config.durationBias : Nat
/-- TG_FIFO_DEPTH less 1, OPEN (D7), so that the depth is at least 1. -/
opaque Config.fifoDepthLessOne : Nat
/-- COLOR_LUT, OPEN (D13). -/
opaque Config.colorUnset : Byte
opaque Config.colorSet : Byte
/-- FONT, OPEN (D26). -/
opaque Config.font : List Byte
/-- GDP_BASE, OPEN (D35). Nothing bounds it by REGFILE_SIZE, here or in the spec (log 26). -/
opaque Config.gdpBase : Nat
/-- PAGE_REG, OPEN (D36). Nothing bounds it by REGFILE_SIZE, here or in the spec (log 26). -/
opaque Config.pageReg : Nat
/-- H_REPLICATE of a format for which the spec states none, OPEN (D15). -/
opaque Config.hReplicateOpen : FormatName → Nat
/-- REGFILE_SIZE less 128, OPEN in 0 to 128 (R33). -/
opaque Config.regfileExtra : Fin 129
/-- The free choice of the schedule (R18, D1): the move at each count, when State names none. It is any function: every
claim holds for every schedule. -/
opaque Config.freeMove : Nat → Move

/-- H_REPLICATE of a format: 3 for the scaled 1920x1080 format, OPEN for the other two (R11, D15). -/
def Config.hReplicate : FormatName → Nat
  | .scaledHd => 3
  | .legacy => Config.hReplicateOpen .legacy
  | .vga => Config.hReplicateOpen .vga

/-- The parameters of this launch: OPEN ones are constants without a body, the others the spec's defaults (R11). -/
def Config.params : Params where
  format := Config.format
  scanFormat := Config.catalog Config.format
  period := Config.period Config.format
  durationBias := Config.durationBias
  fifoDepth := Config.fifoDepthLessOne + 1
  colorUnset := Config.colorUnset
  colorSet := Config.colorSet
  font := Config.font
  skew := []
  cmd7Ctrl1 := 0x00
  cmd7Ctrl2 := 0x00
  cmd7Csize := 0x11
  gdpBase := Config.gdpBase
  pageReg := Config.pageReg
  busyMask := 0x04
  hReplicate := Config.hReplicate Config.format
  initDisplayPage := 0
  initDrawPage := 0
  regfileSize := 128 + Config.regfileExtra.val

end Sys2Proof
end

