-- ==== Sys2Proof/WellFormed.lean ====
section
/-! DEFINITION. Well-formedness: of an instruction as syntax, of a scan format (R152) and of a launch's parameters (R10, R11). -/

namespace Sys2Proof

/-- An instruction is well-formed when its operands are ones its row of spec/opcode_table.json has: the glyph code of a
CHAR row has that row's fixed top bits (R111, R115). Every other field has exactly its width. -/
def Instr.wf : Instr → Bool
  | .char20 g => g.extractLsb' 5 3 == 0b001#3
  | .char40 g => g.extractLsb' 6 2 == 0b01#2
  | _ => true

/-- The first (bits 15:0) and second (bits 31:16) pulse descriptor of a descriptor word (R121). -/
def firstDescriptor (w : Word) : Descriptor := w.extractLsb' 0 16
def secondDescriptor (w : Word) : Descriptor := w.extractLsb' 16 16

/-- A pulse descriptor whose reserved bits 15:12 are 0 (R122). -/
def descriptorWf (d : Descriptor) : Bool := d.extractLsb' 12 4 == 0#4

/-- A descriptor word both of whose descriptors have their reserved bits 0. -/
def wordWf (w : Word) : Bool := descriptorWf (firstDescriptor w) && descriptorWf (secondDescriptor w)

/-- The DUR field of a descriptor (R120). -/
def descriptorDur (d : Descriptor) : Nat := (d.extractLsb' 0 10).toNat

/-- The cycles of one descriptor word under a duration bias (R152 item 5). -/
def wordCycles (bias : Nat) (w : Word) : Nat :=
  (descriptorDur (firstDescriptor w) + bias) + (descriptorDur (secondDescriptor w) + bias)

/-- Why a scan format is refused: the five checks of R152, in its order. -/
inductive FormatError where
  | tooManyBlocks
  | blockLength
  | sequenceLength
  | reservedBits
  | period
  deriving DecidableEq, Repr

/-- The length of the flattened sequence (R153). -/
def formatLength (f : ScanFormat) : Nat := (f.map fun b => b.words.length * b.count).sum

/-- The cycles of one pass of the flattened sequence (R152 item 5). -/
def formatCycles (bias : Nat) (f : ScanFormat) : Nat :=
  (f.map fun b => (b.words.map (wordCycles bias)).sum * b.count).sum

/-- The checks of R152 made before BUILD: the first that fails, if any. The period check is skipped when PERIOD is not
supplied. -/
def formatError (p : Params) : Option FormatError :=
  if 4 < p.scanFormat.length then some .tooManyBlocks
  else if !(p.scanFormat.all fun b => b.words.length == 1 || b.words.length == 2) then some .blockLength
  else if !(decide (1 ≤ formatLength p.scanFormat) && decide (formatLength p.scanFormat ≤ 4096)) then some .sequenceLength
  else if !(p.scanFormat.all fun b => b.words.all wordWf) then some .reservedBits
  else match p.period with
    | none => none
    | some t => if formatCycles p.durationBias p.scanFormat == t then none else some .period

/-- The parameters lie in the ranges R10 and R11 give them: TG_FIFO_DEPTH at least 1, BUSY_MASK without bit 1,
REGFILE_SIZE 128 to 256, H_REPLICATE 3 for the scaled 1920x1080 format. It does not bound GDP_BASE or PAGE_REG, since the spec does not (DESIGN CHOICE, log 26). -/
def Params.wf (p : Params) : Bool :=
  decide (1 ≤ p.fifoDepth) && !(p.busyMask.getLsbD 1) && decide (128 ≤ p.regfileSize) && decide (p.regfileSize ≤ 256) &&
    (p.format != .scaledHd || p.hReplicate == 3)

end Sys2Proof
end

