-- ==== Sys2Proof/Decode.lean ====
section
/-! DEFINITION. The three decoders (command byte, pulse descriptor, page byte), then the encoder, from 30_encoding.md
and spec/opcode_table.json; and the reading of a table word. -/

namespace Sys2Proof

/-- Decode of a command byte (R111 to R115, R118, R119): total, each byte in exactly one row of the table. The rows are
tried in the table's order, each by its mask and match. -/
def decodeCommand (b : Byte) : Instr :=
  if b = 0x00#8 then .pen
  else if b = 0x01#8 then .eraser
  else if b = 0x02#8 then .pendown
  else if b = 0x03#8 then .penup
  else if b = 0x04#8 then .cls
  else if b = 0x05#8 then .xyrst
  else if b = 0x06#8 then .clsxy
  else if b = 0x07#8 then .reset
  else if b &&& 0xFE#8 = 0x08#8 then .nop08 (b.extractLsb' 0 1)
  else if b = 0x0A#8 then .cursor
  else if b = 0x0B#8 then .nop0B
  else if b &&& 0xFC#8 = 0x0C#8 then .nop0C (b.extractLsb' 0 2)
  else if b &&& 0xF8#8 = 0x10#8 then .vec (b.extractLsb' 2 1) (b.extractLsb' 1 1) (b.extractLsb' 0 1)
  else if b &&& 0xF8#8 = 0x18#8 then .vecEq (b.extractLsb' 2 1) (b.extractLsb' 1 1) (b.extractLsb' 0 1)
  else if b &&& 0xE0#8 = 0x20#8 then .char20 b
  else if b &&& 0xC0#8 = 0x40#8 then .char40 b
  else .svec (b.extractLsb' 5 2) (b.extractLsb' 3 2) (b.extractLsb' 2 1) (b.extractLsb' 1 1) (b.extractLsb' 0 1)

/-- Why a decoder rejects a word. -/
inductive DecodeError where
  /-- A pulse descriptor with bits 15:12 not 0 (R122). -/
  | reservedDescriptor
  deriving DecidableEq, Repr

/-- Decode of a pulse descriptor (R120, R122). -/
def decodeDescriptor (d : Descriptor) : Except DecodeError Instr :=
  if d &&& 0xF800#16 = 0x0000#16 then .ok (.pulse (d.extractLsb' 10 1) (d.extractLsb' 0 10))
  else if d &&& 0xF800#16 = 0x0800#16 then .ok (.pulseDs (d.extractLsb' 10 1) (d.extractLsb' 0 10))
  else .error .reservedDescriptor

/-- Decode of a page byte (R124): total. -/
def decodePage (b : Byte) : Instr :=
  .page (b.extractLsb' 6 2) (b.extractLsb' 4 2) (b.extractLsb' 0 4)

/-- A word of one of the three kinds the block decodes (30_encoding.md): what kind it is comes from the queue or
sequence it stands in, not from its bits. -/
inductive Code where
  | command (b : Byte)
  | descriptor (d : Descriptor)
  | pageByte (b : Byte)
  deriving DecidableEq, Repr

/-- The decoder of all three kinds. -/
def decode : Code → Except DecodeError Instr
  | .command b => .ok (decodeCommand b)
  | .descriptor d => decodeDescriptor d
  | .pageByte b => .ok (decodePage b)

/-- The encoding of an instruction (30_encoding.md; for a page byte, all eight bits, as PAGESEL stores them, R43). -/
def encode : Instr → Code
  | .pen => .command 0x00
  | .eraser => .command 0x01
  | .pendown => .command 0x02
  | .penup => .command 0x03
  | .cls => .command 0x04
  | .xyrst => .command 0x05
  | .clsxy => .command 0x06
  | .reset => .command 0x07
  | .nop08 r => .command (0b0000100#7 ++ r)
  | .cursor => .command 0x0A
  | .nop0B => .command 0x0B
  | .nop0C r => .command (0b000011#6 ++ r)
  | .vec sy sx a => .command (0b00010#5 ++ sy ++ sx ++ a)
  | .vecEq sy sx a => .command (0b00011#5 ++ sy ++ sx ++ a)
  | .char20 g => .command g
  | .char40 g => .command g
  | .svec dx dy sy sx a => .command (0b1#1 ++ dx ++ dy ++ sy ++ sx ++ a)
  | .pulse lvl dur => .descriptor (0b00000#5 ++ lvl ++ dur)
  | .pulseDs lvl dur => .descriptor (0b00001#5 ++ lvl ++ dur)
  | .page disp draw ignored => .pageByte (disp ++ draw ++ ignored)

/-- The instruction of a word of spec/opcode_table.json: one byte is a command byte, two bytes a pulse descriptor. A page
byte is one byte too and no bit tells it from a command byte, so one byte is always read as a command (log 13). -/
def decodeTableWord (nbits w : Nat) : Option Instr :=
  if nbits = 8 then some (decodeCommand (BitVec.ofNat 8 w))
  else if nbits = 16 then
    match decodeDescriptor (BitVec.ofNat 16 w) with
    | .ok i => some i
    | .error _ => none
  else none

end Sys2Proof
end

