-- ==== Sys2Proof/Machine/State.lean ====
section
/-! DEFINITION. The state of the block (10_state.md) as plain data, the reasons a step can stop, and the state right
after reset. -/

namespace Sys2Proof.Machine

/-- A storage space of bytes (FB, a line buffer, FONT, the other register-file entries): address and byte pairs, the
addresses rising, no byte 0; an address it does not list reads 0. -/
abbrev Memory := List Host.Cell

/-- The GDP registers of the shared register file (R34 to R40). CMD and PAGE are no stored state (R41, R42). -/
structure Gdp where
  status : Byte
  ctrl1 : Byte
  ctrl2 : Byte
  csize : Byte
  deltax : Byte
  deltay : Byte
  xmsb : Byte
  xlsb : Byte
  ymsb : Byte
  ylsb : Byte
  deriving DecidableEq, Repr

/-- The DescriptorSequence and the sync channel that replays it (R31, R45, R46). Entries of `seq` from `seqLen` on are
never read. -/
structure Sync where
  seq : List Word
  seqLen : Nat
  idx : Nat
  running : Bool
  irqPending : Bool
  deriving DecidableEq, Repr

/-- The timing generator and its FIFO, head first (R47, R48). -/
structure Timing where
  fifo : List Word
  word : Option Word
  half : BitVec 1
  level : BitVec 1
  deriving DecidableEq, Repr

/-- The data channel and the ping-pong line buffers (R49 to R51, R53, R54). -/
structure Video where
  lineActivePending : Nat
  lineCounter : BitVec 10
  frameComplete : Bool
  lb0 : Memory
  lb1 : Memory
  outSel : BitVec 1
  deriving DecidableEq, Repr

/-- The refill in progress (R55). -/
structure Refill where
  active : Bool
  buf : BitVec 1
  src : BitVec 14
  k : Nat
  word : Word
  deriving DecidableEq, Repr

/-- The constant tables loaded at boot: COLOR_LUT (R56) and FONT, byte 5*g + c for column c of glyph g (R57). -/
structure Tables where
  lutUnset : Byte
  lutSet : Byte
  font : Memory
  deriving DecidableEq, Repr

/-- What a plot does for a value of CTRL1 bits 1:0 (R291). -/
inductive DrawMode where
  | draw
  | erase
  | inert
  deriving DecidableEq, Repr

/-- One access of the command engine, the indivisible step of a command (R14, R16). A plot is the four accesses of
R290 in order; where the mode just read is inert the last three do nothing. -/
inductive Micro where
  /-- Write a register byte. -/
  | put (r : Reg) (v : Byte)
  /-- Clear and set bits of a register byte as one operation (R90). -/
  | bits (r : Reg) (clear set : Byte)
  /-- Read draw_page (R225). -/
  | latchPage
  /-- Write 0 to word `w` of the page read (R225). -/
  | clearWord (w : BitVec 12)
  /-- Read CTRL1 for a plot (R291). -/
  | plotMode
  /-- Read draw_page for a plot (R294). -/
  | plotPage
  /-- Read the FB word of pixel (x, y) (R292). -/
  | plotRead (x : BitVec 9) (y : BitVec 8)
  /-- Write that word back with the pixel's bit set or cleared (R292). -/
  | plotWrite (x : BitVec 9) (y : BitVec 8)
  deriving DecidableEq, Repr

/-- The values a command has read and still holds: its register operands (R235), and the mode, page and word of the
plot or clear in progress. -/
structure Latch where
  gdp : Gdp
  mode : DrawMode
  page : BitVec 2
  word : Word
  deriving DecidableEq, Repr

/-- The command engine's position inside a command (R32): still reading its operands, or making its other accesses. -/
inductive Job where
  | reading (i : Instr) (rest : List Reg) (lat : Latch)
  | doing (rest : List Micro) (lat : Latch)
  deriving DecidableEq, Repr

/-- An event of the output history (R62). -/
inductive Event where
  | syncPulse (level : BitVec 1) (duration : Nat)
  | lineActive
  | frameSync
  | outLine (bytes : List Byte)
  deriving DecidableEq, Repr

/-- The state of the block (10_state.md, R351), and the model's own fields `par`, `booted`, `sched`, `tick`. -/
structure State where
  /-- The parameters of the launch, which no step changes (R60). -/
  par : Params
  /-- The boot of R355 has run. -/
  booted : Bool
  gdp : Gdp
  /-- The register file's other entries, by index (R33). -/
  otherRegs : Memory
  /-- PAGESEL: display_page in bits 7:6, draw_page in bits 5:4 (R43). -/
  pagesel : Word
  vblankObserved : Bool
  /-- FB: word w is bytes 4w to 4w+3, little-endian (R44, R85). -/
  fb : Memory
  sync : Sync
  tg : Timing
  video : Video
  refill : Refill
  tables : Tables
  /-- CMDQ and PAGEQ, head first (R58). -/
  cmdq : List Byte
  pageq : List Byte
  /-- The command in progress; `none` is idle (R32). -/
  cmd : Option Job
  /-- The output history, oldest first (R62). -/
  history : List Event
  /-- The moves the schedule has chosen already, next first; when it is empty the next move is free (R18). -/
  sched : List Move
  /-- The number of free moves taken. -/
  tick : Nat
  deriving DecidableEq, Repr

/-- The faults of the model: none, so it has no constructor. No rule of the block faults (R320, R321) and no access does
(R93). -/
inductive Fault where
  deriving DecidableEq, Repr

/-- The refusals of the model. -/
inductive Refusal where
  /-- Raised by `exec` for an instruction without a meaning; no arm raises it. Safe. -/
  | notModelled (mnemonic : String)
  /-- Raised by the boot step for a scan format that fails a check of R152 (`refuse IllFormedScanFormat`). Safe: the
  spec gives such a launch no meaning. -/
  | illFormedScanFormat (why : FormatError)
  /-- Raised by a HOST move that asks for a format change or a write to SEQ after boot (R162,
  `refuse FormatChangeWhilePlaying`). Safe: the spec gives it no meaning. -/
  | formatChangeWhilePlaying
  /-- Raised by a TG step whose descriptor has bits 15:12 not 0 (R122). No state that a boot leads to has one, since
  R152 refuses the format. Safe: the spec gives such a descriptor no meaning. -/
  | reservedDescriptor
  deriving DecidableEq, Repr

/-- GDP registers all 0. DESIGN CHOICE, unsafe: the spec leaves every byte unspecified at reset (R350, log 4). -/
def Gdp.zero : Gdp :=
  { status := 0, ctrl1 := 0, ctrl2 := 0, csize := 0, deltax := 0, deltay := 0, xmsb := 0, xlsb := 0, ymsb := 0, ylsb := 0 }

/-- PAGESEL at reset and after the boot, for a display and a draw page (R43, R351, R355). Its other bits, 31:8 and 3:0, are
0: DESIGN CHOICE, unsafe (log 25), since the spec gives only the two page fields and no rule reads the others. -/
def initPagesel (disp draw : BitVec 2) : Word := (0#24 ++ disp ++ draw ++ 0#4 : BitVec 32)

/-- The state right after reset, before the boot of R355, which is the first step (log 3). The values R351 leaves
unspecified are zeros (DESIGN CHOICE, unsafe, log 4 to log 6); statements hold for every value of them. -/
def State.reset : State where
  par := Config.params
  booted := false
  gdp := Gdp.zero
  otherRegs := []
  pagesel := initPagesel Config.params.initDisplayPage Config.params.initDrawPage
  vblankObserved := false
  fb := []
  sync := { seq := [], seqLen := 0, idx := 0, running := false, irqPending := false }
  tg := { fifo := [], word := none, half := 0, level := 0 }
  video := { lineActivePending := 0, lineCounter := 0, frameComplete := false, lb0 := [], lb1 := [], outSel := 0 }
  refill := { active := false, buf := 0, src := 0, k := 0, word := 0 }
  tables := { lutUnset := 0, lutSet := 0, font := [] }
  cmdq := []
  pageq := []
  cmd := none
  history := []
  sched := []
  tick := 0

end Sys2Proof.Machine
end

