-- ==== Sys2Proof/Machine/Ops.lean ====
section
/-! DEFINITION. The named operations over memory, registers, pages, the framebuffer and the history. The block takes no
exception (R320) and a handler's entry saves nothing and changes no mode (R324, R325), so no operation takes one; the two
handlers are steps of their agents in Sequencer.lean and Video.lean. -/

namespace Sys2Proof.Machine

/-! ### Memory -/

/-- The byte at an address; 0 where the memory lists none. -/
def memRead : Memory → Nat → Byte
  | [], _ => 0#8
  | (b, v) :: m, a => if b = a then v else memRead m a

/-- A memory without the entries of an address. -/
def memErase : Memory → Nat → Memory
  | [], _ => []
  | (b, w) :: m, a => if b = a then memErase m a else (b, w) :: memErase m a

/-- A memory with an entry put before the first larger address. -/
def memInsert : Memory → Nat → Byte → Memory
  | [], a, v => [(a, v)]
  | (b, w) :: m, a, v => if a < b then (a, v) :: (b, w) :: m else (b, w) :: memInsert m a v

/-- Write a byte, keeping the canonical form: 0 is what an unlisted address reads as and is not listed. -/
def memWrite (m : Memory) (a : Nat) (v : Byte) : Memory :=
  if v = 0#8 then memErase m a else memInsert (memErase m a) a v

/-- The canonical form from an address on: addresses rising from `low`, below `size`, no byte 0. -/
def memWfFrom (size : Nat) : Nat → Memory → Bool
  | _, [] => true
  | low, (a, v) :: m => decide (low ≤ a) && decide (a < size) && decide (v ≠ 0#8) && memWfFrom size (a + 1) m

/-- The canonical form of a space of `size` bytes. -/
def Memory.wf (size : Nat) (m : Memory) : Bool := memWfFrom size 0 m

/-- The memory that holds the given bytes from address `a` on, over `m`. -/
def memLoad : Memory → Nat → List Byte → Memory
  | m, _, [] => m
  | m, a, v :: vs => memLoad (memWrite m a v) (a + 1) vs

/-- The words of one page (R10). -/
def pageWords : Nat := 4096

/-- The sizes in bytes of FB, a line buffer and FONT (R80). -/
def fbBytes : Nat := 65536
def lbBytes : Nat := 512
def fontBytes : Nat := 485

/-- A 32-bit word of a byte memory, little-endian (R85). -/
def wordRead (m : Memory) (w : Nat) : Word :=
  memRead m (4 * w + 3) ++ memRead m (4 * w + 2) ++ memRead m (4 * w + 1) ++ memRead m (4 * w)

/-- Write a 32-bit word, little-endian (R85). -/
def wordWrite (m : Memory) (w : Nat) (v : Word) : Memory :=
  memWrite (memWrite (memWrite (memWrite m (4 * w) (v.extractLsb' 0 8)) (4 * w + 1) (v.extractLsb' 8 8))
    (4 * w + 2) (v.extractLsb' 16 8)) (4 * w + 3) (v.extractLsb' 24 8)

/-! ### Updates of one field of State -/

def State.withGdp (s : State) (g : Gdp) : State := { s with gdp := g }
def State.withOtherRegs (s : State) (m : Memory) : State := { s with otherRegs := m }
def State.withPagesel (s : State) (w : Word) : State := { s with pagesel := w }
def State.withVblankObserved (s : State) (b : Bool) : State := { s with vblankObserved := b }
def State.withFb (s : State) (m : Memory) : State := { s with fb := m }
def State.withSync (s : State) (y : Sync) : State := { s with sync := y }
def State.withTg (s : State) (t : Timing) : State := { s with tg := t }
def State.withVideo (s : State) (v : Video) : State := { s with video := v }
def State.withRefill (s : State) (r : Refill) : State := { s with refill := r }
def State.withCmdq (s : State) (q : List Byte) : State := { s with cmdq := q }
def State.withPageq (s : State) (q : List Byte) : State := { s with pageq := q }
def State.withCmd (s : State) (c : Option Job) : State := { s with cmd := c }
def State.withSched (s : State) (ms : List Move) : State := { s with sched := ms }
def State.withTick (s : State) (n : Nat) : State := { s with tick := n }

/-- Append an event to the output history (R14, R62). -/
def State.emit (s : State) (e : Event) : State := { s with history := s.history ++ [e] }

/-! ### Registers -/

/-- The byte of a GDP register (R34). -/
def Gdp.get (g : Gdp) : Reg → Byte
  | .status => g.status
  | .ctrl1 => g.ctrl1
  | .ctrl2 => g.ctrl2
  | .csize => g.csize
  | .deltax => g.deltax
  | .deltay => g.deltay
  | .xmsb => g.xmsb
  | .xlsb => g.xlsb
  | .ymsb => g.ymsb
  | .ylsb => g.ylsb

/-- The registers with one byte replaced. -/
def Gdp.set (g : Gdp) (r : Reg) (v : Byte) : Gdp :=
  match r with
  | .status => { g with status := v }
  | .ctrl1 => { g with ctrl1 := v }
  | .ctrl2 => { g with ctrl2 := v }
  | .csize => { g with csize := v }
  | .deltax => { g with deltax := v }
  | .deltay => { g with deltay := v }
  | .xmsb => { g with xmsb := v }
  | .xlsb => { g with xlsb := v }
  | .ymsb => { g with ymsb := v }
  | .ylsb => { g with ylsb := v }

/-- Register-file get (R90). -/
def getReg (s : State) (r : Reg) : Byte := s.gdp.get r

/-- Register-file set (R90). -/
def setReg (s : State) (r : Reg) (v : Byte) : State := s.withGdp (s.gdp.set r v)

/-- Register-file clear-set-bits, one operation (R90). -/
def clearSetBits (s : State) (r : Reg) (clear set : Byte) : State :=
  setReg s r ((getReg s r &&& ~~~clear) ||| set)

/-! ### Pages and the framebuffer -/

/-- display_page (R43). -/
def displayPage (s : State) : BitVec 2 := s.pagesel.extractLsb' 6 2

/-- draw_page (R43). -/
def drawPage (s : State) : BitVec 2 := s.pagesel.extractLsb' 4 2

/-- The FB index of word `w` of page `p` (R81). -/
def fbIndex (p : BitVec 2) (w : BitVec 12) : Nat := p.toNat * 4096 + w.toNat

/-- The word of pixel (x, y) inside its page (R82). -/
def pixWord (x : BitVec 9) (y : BitVec 8) : BitVec 12 := BitVec.ofNat 12 ((255 - y.toNat) * 16 + x.toNat / 32)

/-- The bit of pixel (x, y) inside its word (R82). -/
def pixBit (x : BitVec 9) : Nat := 31 - x.toNat % 32

/-- Read an FB word: one atomic access (R88). -/
def fbLoad (s : State) (w : Nat) : Word := wordRead s.fb w

/-- Write an FB word: one atomic access (R88). -/
def fbStore (s : State) (w : Nat) (v : Word) : State := s.withFb (wordWrite s.fb w v)

/-- A word with bit `t` set. -/
def setBit (v : Word) (t : Nat) : Word := v ||| (1#32 <<< t)

/-- A word with bit `t` cleared. -/
def clearBit (v : Word) (t : Nat) : Word := v &&& ~~~(1#32 <<< t)

/-- Pixel (x, y) of page `p` of a framebuffer: 1 is set (R44, R82). -/
def pixel (fb : Memory) (p : BitVec 2) (x : BitVec 9) (y : BitVec 8) : Bool :=
  (wordRead fb (fbIndex p (pixWord x y))).getLsbD (pixBit x)

/-! ### Line buffers and tables -/

/-- Line buffer `b` (R53). -/
def lineBuffer (v : Video) (b : BitVec 1) : Memory := if b = 0#1 then v.lb0 else v.lb1

/-- The 512 bytes of a line buffer (R53). -/
def lineBytes (m : Memory) : List Byte := (List.range 512).map (memRead m)

/-- Write byte `k` of line buffer `b` (R203). -/
def lineWrite (v : Video) (b : BitVec 1) (k : Nat) (c : Byte) : Video :=
  if b = 0#1 then { v with lb0 := memWrite v.lb0 k c } else { v with lb1 := memWrite v.lb1 k c }

/-- COLOR_LUT by a pixel's bit (R56). -/
def lut (t : Tables) (bit : Bool) : Byte := if bit then t.lutSet else t.lutUnset

/-- FONT[g][c] (R57). -/
def fontByte (t : Tables) (g c : Nat) : Byte := memRead t.font (5 * g + c)

end Sys2Proof.Machine
end

