-- ==== Sys2Proof/Machine/Flags.lean ====
section
/-! DEFINITION. The flags and mode bits: CTRL1 draw mode and enable, CTRL2 skew and orientation, the STATUS bits. -/

namespace Sys2Proof.Machine

/-- What a plot does for CTRL1 (R291, R293): bits 1:0 = 11 draw, 01 erase, any other pair nothing. -/
def modeOf (ctrl1 : Byte) : DrawMode :=
  if ctrl1.extractLsb' 0 2 = 0b11#2 then .draw
  else if ctrl1.extractLsb' 0 2 = 0b01#2 then .erase
  else .inert

/-- CTRL1 bit 0, the draw enable (R35, R251). -/
def drawEnabled (ctrl1 : Byte) : Bool := ctrl1.getLsbD 0

/-- CTRL2 bit 2, SKEW (R36). -/
def skewed (ctrl2 : Byte) : Bool := ctrl2.getLsbD 2

/-- CTRL2 bit 3, VERTICAL (R36). -/
def vertical (ctrl2 : Byte) : Bool := ctrl2.getLsbD 3

/-- The STATUS bit of the vblank flag (R40). -/
def vblankMask : Byte := 0x02

/-- The access that ends every command: the busy bits of STATUS cleared (R303). -/
def completion (p : Params) : List Micro := [.bits .status p.busyMask 0x00]

/-- STATUS with its vblank bit made equal to a flag, the other bits kept, as one operation (R305). -/
def mirrorVblank (s : State) (f : Bool) : State :=
  clearSetBits s .status vblankMask (if f then vblankMask else 0x00)

end Sys2Proof.Machine
end

