-- ==== Sys2Proof/Machine/Operands.lean ====
section
/-! DEFINITION. Operand assembly (R116): cursor, scales, glyph, magnitudes, axis forcing, steps; and the points a line
(R270) and a character (R250) plot, as unbounded integers. -/

namespace Sys2Proof.Machine

/-- A point of the plane; coordinates are unbounded (R13, D29). -/
abbrev Point := Int × Int

/-- The cursor X and Y (R15, R39). -/
def cursorX (g : Gdp) : BitVec 16 := g.xmsb ++ g.xlsb
def cursorY (g : Gdp) : BitVec 16 := g.ymsb ++ g.ylsb

/-- The registers of the cursor in the order they are read: the high byte of X first, then its low byte, Y likewise. DESIGN
CHOICE, unsafe (log 24): the spec orders X before Y (R250, R270) and the two writes of each (R39), not the two reads (R15,
R116, R235, R271). -/
def cursorRegs : List Reg := [.xmsb, .xlsb, .ymsb, .ylsb]

/-- Write X: both bytes, MSB then LSB (R15, R39). -/
def putX (v : BitVec 16) : List Micro := [.put .xmsb (v.extractLsb' 8 8), .put .xlsb (v.extractLsb' 0 8)]

/-- Write Y: both bytes, MSB then LSB (R15, R39). -/
def putY (v : BitVec 16) : List Micro := [.put .ymsb (v.extractLsb' 8 8), .put .ylsb (v.extractLsb' 0 8)]

/-! ### Lines -/

/-- The step of an axis: its sign bit 1 is decrement (R274). -/
def stepOf (sign : BitVec 1) : Int := if sign = 1#1 then -1 else 1

/-- Axis forcing (R273): with A = 0, equal signs force dy to 0, different signs force dx to 0. -/
def forceAxis (sy sx a : BitVec 1) (m : Nat × Nat) : Nat × Nat :=
  if a = 0#1 then (if sx ^^^ sy = 0#1 then (m.1, 0) else (0, m.2)) else m

/-- The magnitudes of VEC, VECEQ and SVEC (R272), before axis forcing. -/
def vecMagnitudes (g : Gdp) : Nat × Nat := (g.deltax.toNat, g.deltay.toNat)
def vecEqMagnitudes (g : Gdp) : Nat × Nat := (max g.deltax.toNat g.deltay.toNat, max g.deltax.toNat g.deltay.toNat)
def svecMagnitudes (dx dy : BitVec 2) : Nat × Nat := (dx.toNat, dy.toNat)

/-- The Bresenham loop with x the major axis (R270): the points of `n` steps from (x, y) with accumulator `err`. -/
def xMajorPoints (dx dy : Nat) (stx sty : Int) : Nat → Int → Int → Int → List Point
  | 0, _, _, _ => []
  | n + 1, x, y, err =>
    if err - dy < 0 then (x + stx, y + sty) :: xMajorPoints dx dy stx sty n (x + stx) (y + sty) (err - dy + dx)
    else (x + stx, y) :: xMajorPoints dx dy stx sty n (x + stx) y (err - dy)

/-- The Bresenham loop with y the major axis (R270). -/
def yMajorPoints (dx dy : Nat) (stx sty : Int) : Nat → Int → Int → Int → List Point
  | 0, _, _, _ => []
  | n + 1, x, y, err =>
    if err - dx < 0 then (x + stx, y + sty) :: yMajorPoints dx dy stx sty n (x + stx) (y + sty) (err - dx + dy)
    else (x, y + sty) :: yMajorPoints dx dy stx sty n x (y + sty) (err - dx)

/-- The points a line plots, in order, the start pixel first (R270, R275). -/
def linePoints (x0 y0 : Int) (dx dy : Nat) (stx sty : Int) : List Point :=
  (x0, y0) ::
    if dy ≤ dx then xMajorPoints dx dy stx sty (max dx dy) x0 y0 ((dx / 2 : Nat) : Int)
    else yMajorPoints dx dy stx sty (max dx dy) x0 y0 ((dy / 2 : Nat) : Int)

/-- The points of a vector command with given direction bits and magnitudes, from the cursor (R270). -/
def vectorPoints (g : Gdp) (sy sx a : BitVec 1) (m : Nat × Nat) : List Point :=
  linePoints (cursorX g).toNat (cursorY g).toNat (forceAxis sy sx a m).1 (forceAxis sy sx a m).2 (stepOf sx) (stepOf sy)

/-! ### Characters -/

/-- The x- and y-scale of CSIZE, 0 read as 16 (R253). -/
def scaleX (csize : Byte) : Nat := if csize.extractLsb' 4 4 = 0#4 then 16 else (csize.extractLsb' 4 4).toNat
def scaleY (csize : Byte) : Nat := if csize.extractLsb' 0 4 = 0#4 then 16 else (csize.extractLsb' 0 4).toNat

/-- The font index of a glyph code; a code outside 0x20 to 0x80 is the space (R252). -/
def glyphIndex (a : Byte) : Nat := if 0x20 ≤ a.toNat ∧ a.toNat ≤ 0x80 then a.toNat - 0x20 else 0

/-- SKEW_OFFSET (R255, D28). -/
def skewOffset (p : Params) (u : Nat) : Int := p.skew.getD u u

/-- The point of primary offset `u` and secondary offset `v` for CTRL2 from the cursor (R254, R255). -/
def glyphPoint (p : Params) (ctrl2 : Byte) (x0 y0 : Int) (u v : Nat) : Point :=
  let w : Int := if skewed ctrl2 then v + skewOffset p u else v
  if vertical ctrl2 then (x0 + w, y0 + u) else (x0 + u, y0 + w)

/-- The points a character plots, in the order of the loops of R250; none when the draw enable is clear (R251). -/
def charPoints (p : Params) (t : Tables) (a : Byte) (g : Gdp) : List Point :=
  if drawEnabled g.ctrl1 then
    (List.range 5).flatMap fun c =>
      (List.range (scaleX g.csize)).flatMap fun i =>
        (List.range 8).flatMap fun r =>
          if (fontByte t (glyphIndex a) c).getLsbD r then
            (List.range (scaleY g.csize)).map fun j =>
              glyphPoint p g.ctrl2 (cursorX g).toNat (cursorY g).toNat (c * scaleX g.csize + i) (r * scaleY g.csize + j)
          else []
  else []

/-! ### Plots -/

/-- The screen: 0 ≤ x < 512, 0 ≤ y < 256 (R290). -/
def onScreen (q : Point) : Bool := decide (0 ≤ q.1) && decide (q.1 < 512) && decide (0 ≤ q.2) && decide (q.2 < 256)

/-- The accesses of plot(x, y): none outside the screen, else the four of R290. -/
def plotMicros (q : Point) : List Micro :=
  if onScreen q then
    [.plotMode, .plotPage, .plotRead (BitVec.ofInt 9 q.1) (BitVec.ofInt 8 q.2), .plotWrite (BitVec.ofInt 9 q.1) (BitVec.ofInt 8 q.2)]
  else []

/-- The accesses of the plots of a list of points, in order. -/
def plotAll (qs : List Point) : List Micro := qs.flatMap plotMicros

end Sys2Proof.Machine
end

