-- ==== Sys2Proof/Machine/Command.lean ====
section
/-! DEFINITION. The command engine: what one access does (R14, R290), and a whole command as the sequence of its accesses:
its register operands read once at the start (R235), then the rest. -/

namespace Sys2Proof.Machine

/-- Nothing read yet. -/
def Latch.empty : Latch := { gdp := Gdp.zero, mode := .inert, page := 0, word := 0 }

/-- Read one register operand (R235). -/
def latchReg (s : State) (l : Latch) (r : Reg) : Latch := { l with gdp := l.gdp.set r (getReg s r) }

/-- One access of a command. -/
def access (m : Micro) (c : Latch × State) : Latch × State :=
  match m with
  | .put r v => (c.1, setReg c.2 r v)
  | .bits r clear set => (c.1, clearSetBits c.2 r clear set)
  | .latchPage => ({ c.1 with page := drawPage c.2 }, c.2)
  | .clearWord w => (c.1, fbStore c.2 (fbIndex c.1.page w) 0)
  | .plotMode => ({ c.1 with mode := modeOf (getReg c.2 .ctrl1) }, c.2)
  | .plotPage =>
    match c.1.mode with
    | .inert => c
    | _ => ({ c.1 with page := drawPage c.2 }, c.2)
  | .plotRead x y =>
    match c.1.mode with
    | .inert => c
    | _ => ({ c.1 with word := fbLoad c.2 (fbIndex c.1.page (pixWord x y)) }, c.2)
  | .plotWrite x y =>
    match c.1.mode with
    | .inert => c
    | .draw => (c.1, fbStore c.2 (fbIndex c.1.page (pixWord x y)) (setBit c.1.word (pixBit x)))
    | .erase => (c.1, fbStore c.2 (fbIndex c.1.page (pixWord x y)) (clearBit c.1.word (pixBit x)))

/-- Several accesses in order. -/
def accesses (ms : List Micro) (c : Latch × State) : Latch × State := ms.foldl (fun c m => access m c) c

/-- The operands of a command read in order. -/
def readOperands (s : State) (rs : List Reg) : Latch := rs.foldl (latchReg s) Latch.empty

/-- A whole command with no other agent's step inside: read the operands `regs`, then make the accesses `body` gives for
what was read. -/
def runCommand (regs : List Reg) (body : Gdp → State → List Micro) (s : State) : State :=
  (accesses (body (readOperands s regs).gdp s) (readOperands s regs, s)).2

end Sys2Proof.Machine
end

