-- ==== Sys2Proof/Machine/Character.lean ====
section
/-! DEFINITION. The character commands CHAR and CURSOR over char_draw (R229, R233, R250). -/

namespace Sys2Proof.Machine

/-- The cursor's advance: 6 times the x-scale along the primary axis, modulo 2^16, the primary register only (R257). -/
def advanceMicros (g : Gdp) : List Micro :=
  if vertical g.ctrl2 then putY (cursorY g + BitVec.ofNat 16 (6 * scaleX g.csize))
  else putX (cursorX g + BitVec.ofNat 16 (6 * scaleX g.csize))

/-- The accesses of char_draw after its operand reads (R250). -/
def charMicros (a : Byte) (g : Gdp) (s : State) : List Micro :=
  plotAll (charPoints s.par s.tables a g) ++ advanceMicros g ++ completion s.par

/-- The register operands of char_draw (R235, R250). -/
def charRegs : List Reg := [.ctrl1, .ctrl2, .csize] ++ cursorRegs

/-- CURSOR draws glyph code 0x80 (R229). -/
def execCursor (s : State) : Host.Outcome State Fault Refusal := .next (runCommand charRegs (charMicros 0x80) s)
/-- CHAR 0x20 to 0x3F (R233). -/
def execChar20 (glyph : Byte) (s : State) : Host.Outcome State Fault Refusal :=
  .next (runCommand charRegs (charMicros glyph) s)
/-- CHAR 0x40 to 0x7F (R233). -/
def execChar40 (glyph : Byte) (s : State) : Host.Outcome State Fault Refusal :=
  .next (runCommand charRegs (charMicros glyph) s)

end Sys2Proof.Machine
end

