-- ==== Sys2Proof/Machine/Low.lean ====
section
/-! DEFINITION. The low commands (R221 to R228, R232): their accesses and their meanings. None reads a register operand
except through a clear-set-bits. -/

namespace Sys2Proof.Machine

/-- PEN (R221): CTRL1 bit 1 set. -/
def penMicros (_ : Gdp) (s : State) : List Micro := .bits .ctrl1 0x00 0x02 :: completion s.par

/-- ERASER (R222): CTRL1 bit 1 cleared. -/
def eraserMicros (_ : Gdp) (s : State) : List Micro := .bits .ctrl1 0x02 0x00 :: completion s.par

/-- PENDOWN (R223): CTRL1 bit 0 set. -/
def pendownMicros (_ : Gdp) (s : State) : List Micro := .bits .ctrl1 0x00 0x01 :: completion s.par

/-- PENUP (R224): CTRL1 bit 0 cleared. -/
def penupMicros (_ : Gdp) (s : State) : List Micro := .bits .ctrl1 0x01 0x00 :: completion s.par

/-- The clear of the draw page (R225): draw_page read once, then 4096 word writes in ascending order. -/
def clearPage : List Micro := .latchPage :: (List.range pageWords).map fun w => .clearWord (BitVec.ofNat 12 w)

/-- The cursor zeroed (R226). -/
def zeroCursor : List Micro := putX 0 ++ putY 0

/-- CLS (R225). -/
def clsMicros (_ : Gdp) (s : State) : List Micro := clearPage ++ completion s.par

/-- XYRST (R226). -/
def xyrstMicros (_ : Gdp) (s : State) : List Micro := zeroCursor ++ completion s.par

/-- CLSXY (R227). -/
def clsxyMicros (_ : Gdp) (s : State) : List Micro := zeroCursor ++ clearPage ++ completion s.par

/-- RESET (R228): CTRL1, CTRL2 and CSIZE loaded, then what CLSXY does. -/
def resetMicros (_ : Gdp) (s : State) : List Micro :=
  [.put .ctrl1 s.par.cmd7Ctrl1, .put .ctrl2 s.par.cmd7Ctrl2, .put .csize s.par.cmd7Csize] ++ zeroCursor ++ clearPage ++
    completion s.par

/-- NOP (R232): the completion only. -/
def nopMicros (_ : Gdp) (s : State) : List Micro := completion s.par

def execPen (s : State) : Host.Outcome State Fault Refusal := .next (runCommand [] penMicros s)
def execEraser (s : State) : Host.Outcome State Fault Refusal := .next (runCommand [] eraserMicros s)
def execPendown (s : State) : Host.Outcome State Fault Refusal := .next (runCommand [] pendownMicros s)
def execPenup (s : State) : Host.Outcome State Fault Refusal := .next (runCommand [] penupMicros s)
def execCls (s : State) : Host.Outcome State Fault Refusal := .next (runCommand [] clsMicros s)
def execXyrst (s : State) : Host.Outcome State Fault Refusal := .next (runCommand [] xyrstMicros s)
def execClsxy (s : State) : Host.Outcome State Fault Refusal := .next (runCommand [] clsxyMicros s)
def execReset (s : State) : Host.Outcome State Fault Refusal := .next (runCommand [] resetMicros s)

/-- NOP 0x08, 0x09; the reserved bit has no effect (R118). -/
def execNop08 (_ : BitVec 1) (s : State) : Host.Outcome State Fault Refusal := .next (runCommand [] nopMicros s)
/-- NOP 0x0B. -/
def execNop0B (s : State) : Host.Outcome State Fault Refusal := .next (runCommand [] nopMicros s)
/-- NOP 0x0C to 0x0F; the reserved bits have no effect (R118). -/
def execNop0C (_ : BitVec 2) (s : State) : Host.Outcome State Fault Refusal := .next (runCommand [] nopMicros s)

end Sys2Proof.Machine
end

