-- ==== Sys2Proof/Machine/PageSwitch.lean ====
section
/-! DEFINITION. PAGE, the page switch (R304). -/

namespace Sys2Proof.Machine

/-- PAGESEL for a page byte: the byte stored as received (R43, R304). -/
def pageWord (disp draw : BitVec 2) (ignored : BitVec 4) : Word := (0#24 ++ disp ++ draw ++ ignored : BitVec 32)

/-- PAGE (R304), after the byte is taken from PAGEQ: one atomic word write, no acknowledgment. -/
def execPage (disp draw : BitVec 2) (ignored : BitVec 4) (s : State) : Host.Outcome State Fault Refusal :=
  .next (s.withPagesel (pageWord disp draw ignored))

end Sys2Proof.Machine
end

