-- ==== Sys2Proof/Machine/Pulse.lean ====
section
/-! DEFINITION. The timing generator's instructions PULSE and PULSE_DS (R159, R160). -/

namespace Sys2Proof.Machine

/-- Drive the level and record the pulse, with the duration bias (R159). -/
def drivePulse (lvl : BitVec 1) (dur : BitVec 10) (s : State) : State :=
  (s.withTg { s.tg with level := lvl }).emit (.syncPulse lvl (dur.toNat + s.par.durationBias))

/-- Signal data start: one more line-active event (R160). -/
def signalDataStart (s : State) : State :=
  (s.withVideo { s.video with lineActivePending := s.video.lineActivePending + 1 }).emit .lineActive

/-- Past the descriptor just executed: the word's second half, or the end of the word (R159). -/
def nextHalf (s : State) : State :=
  if s.tg.half = 0#1 then s.withTg { s.tg with half := 1#1 } else s.withTg { s.tg with word := none }

/-- PULSE (R159). -/
def execPulse (lvl : BitVec 1) (dur : BitVec 10) (s : State) : Host.Outcome State Fault Refusal :=
  .next (nextHalf (drivePulse lvl dur s))

/-- PULSE_DS (R160). -/
def execPulseDs (lvl : BitVec 1) (dur : BitVec 10) (s : State) : Host.Outcome State Fault Refusal :=
  .next (nextHalf (signalDataStart (drivePulse lvl dur s)))

end Sys2Proof.Machine
end

