-- ==== Sys2Proof/Machine/Vector.lean ====
section
/-! DEFINITION. The vector commands VEC, VECEQ and SVEC over line_draw (R230, R231, R234, R270). -/

namespace Sys2Proof.Machine

/-- The accesses of line_draw after its operand reads (R270): the plots in order, then the end point modulo 2^16 written
to X and Y (R278). -/
def lineMicros (sy sx a : BitVec 1) (m : Nat × Nat) (g : Gdp) (s : State) : List Micro :=
  let qs := vectorPoints g sy sx a m
  let e := qs.getLastD ((cursorX g).toNat, (cursorY g).toNat)
  plotAll qs ++ (putX (BitVec.ofInt 16 e.1) ++ putY (BitVec.ofInt 16 e.2)) ++ completion s.par

/-- The register operands of VEC and VECEQ (R271). That DELTAX is read before DELTAY is a DESIGN CHOICE, unsafe (log 24). -/
def vecRegs : List Reg := cursorRegs ++ [.deltax, .deltay]

/-- The register operands of SVEC (R271): neither DELTA register. -/
def svecRegs : List Reg := cursorRegs

/-- VEC (R230): the magnitudes are DELTAX and DELTAY. -/
def vecMicros (sy sx a : BitVec 1) (g : Gdp) (s : State) : List Micro := lineMicros sy sx a (vecMagnitudes g) g s

/-- VECEQ (R231): both magnitudes are the larger of DELTAX and DELTAY. -/
def vecEqMicros (sy sx a : BitVec 1) (g : Gdp) (s : State) : List Micro := lineMicros sy sx a (vecEqMagnitudes g) g s

/-- SVEC (R234): the magnitudes are fields of the byte. -/
def svecMicros (dx dy : BitVec 2) (sy sx a : BitVec 1) (g : Gdp) (s : State) : List Micro :=
  lineMicros sy sx a (svecMagnitudes dx dy) g s

def execVec (sy sx a : BitVec 1) (s : State) : Host.Outcome State Fault Refusal :=
  .next (runCommand vecRegs (vecMicros sy sx a) s)
def execVecEq (sy sx a : BitVec 1) (s : State) : Host.Outcome State Fault Refusal :=
  .next (runCommand vecRegs (vecEqMicros sy sx a) s)
def execSvec (dx dy : BitVec 2) (sy sx a : BitVec 1) (s : State) : Host.Outcome State Fault Refusal :=
  .next (runCommand svecRegs (svecMicros dx dy sy sx a) s)

end Sys2Proof.Machine
end

