-- ==== Sys2Proof/Machine/Dispatch.lean ====
section
/-! DEFINITION. exec: one arm per instruction, each one call of its meaning. -/

namespace Sys2Proof.Machine

def exec (i : Instr) (s : State) : Host.Outcome State Fault Refusal :=
  match i with
  | .pen => Sys2Proof.Machine.execPen s
  | .eraser => Sys2Proof.Machine.execEraser s
  | .pendown => Sys2Proof.Machine.execPendown s
  | .penup => Sys2Proof.Machine.execPenup s
  | .cls => Sys2Proof.Machine.execCls s
  | .xyrst => Sys2Proof.Machine.execXyrst s
  | .clsxy => Sys2Proof.Machine.execClsxy s
  | .reset => Sys2Proof.Machine.execReset s
  | .nop08 r => Sys2Proof.Machine.execNop08 r s
  | .cursor => Sys2Proof.Machine.execCursor s
  | .nop0B => Sys2Proof.Machine.execNop0B s
  | .nop0C r => Sys2Proof.Machine.execNop0C r s
  | .vec sy sx a => Sys2Proof.Machine.execVec sy sx a s
  | .vecEq sy sx a => Sys2Proof.Machine.execVecEq sy sx a s
  | .char20 g => Sys2Proof.Machine.execChar20 g s
  | .char40 g => Sys2Proof.Machine.execChar40 g s
  | .svec dx dy sy sx a => Sys2Proof.Machine.execSvec dx dy sy sx a s
  | .pulse lvl dur => Sys2Proof.Machine.execPulse lvl dur s
  | .pulseDs lvl dur => Sys2Proof.Machine.execPulseDs lvl dur s
  | .page disp draw ignored => Sys2Proof.Machine.execPage disp draw ignored s

end Sys2Proof.Machine
end

