-- ==== Sys2Proof/Machine/HostSide.lean ====
section
/-! DEFINITION. The host interface: the status mirror (R305), the host's moves (R309) and the routing of the bus layer's
(register, data) pairs (R300). -/

namespace Sys2Proof.Machine

/-- The status-mirror step (R305). -/
def mirrorMove (s : State) : State :=
  if s.video.frameComplete = s.vblankObserved then s
  else mirrorVblank (s.withVblankObserved s.video.frameComplete) s.video.frameComplete

/-- MIRROR makes no step inside a command (R307). -/
def mirrorEnabled (s : State) : Bool := s.cmd.isNone

/-- The MIRROR step: a hold inside a command. -/
def mirrorStep (s : State) : State := if mirrorEnabled s then mirrorMove s else s

/-- The GDP register at a register-file index, if one is there (R34). -/
def regAt (p : Params) (index : Nat) : Option Reg := Reg.all.find? fun r => p.gdpBase + r.offset == index

/-- HOST enqueues a command byte, a page byte (R309). -/
def hostCmd (b : Byte) (s : State) : State := s.withCmdq (s.cmdq ++ [b])
def hostPage (b : Byte) (s : State) : State := s.withPageq (s.pageq ++ [b])

/-- The bus layer routes a (register, data) pair (R300): the command register's to CMDQ, the page register's to PAGEQ,
any other into the register file. Where the indexes coincide this order decides (DESIGN CHOICE, log 21). The GDP registers
and the two queues are reached by their index even at REGFILE_SIZE or more (DESIGN CHOICE, log 26); at any other such index
there is no entry (R33) and HOST holds, since no access faults (R93, R321; DESIGN CHOICE, log 12). -/
def hostEntry (index : Nat) (v : Byte) (s : State) : State :=
  if index = s.par.gdpBase then hostCmd v s
  else if index = s.par.pageReg then hostPage v s
  else match regAt s.par index with
    | some r => setReg s r v
    | none => if index < s.par.regfileSize then s.withOtherRegs (memWrite s.otherRegs index v) else s

/-! ### Host scripts (R126, R127)

`wr NAME, v` is the move hostSet, `cmd v` or a command mnemonic hostCmd, `page v` hostPage; `pulse`, `pulse_ds` and
`dword` are words of a scan format. The pseudo-instructions are the lists of moves below. -/

/-- `moveto x, y`. -/
def scriptMoveto (x y : BitVec 16) : List Move :=
  [.hostSet .xmsb (x.extractLsb' 8 8), .hostSet .xlsb (x.extractLsb' 0 8),
    .hostSet .ymsb (y.extractLsb' 8 8), .hostSet .ylsb (y.extractLsb' 0 8)]

/-- `delta dx, dy`. -/
def scriptDelta (dx dy : Byte) : List Move := [.hostSet .deltax dx, .hostSet .deltay dy]

/-- `draw_mode` and `erase_mode`. -/
def scriptDrawMode : List Move := [.hostCmd 0x00, .hostCmd 0x02]
def scriptEraseMode : List Move := [.hostCmd 0x01, .hostCmd 0x02]

/-- The command byte of `lineto_rel dx, dy`. -/
def linetoByte (dx dy : Int) : Byte := 0x11 ||| (if dx < 0 then 0x02 else 0x00) ||| (if dy < 0 then 0x04 else 0x00)

/-- `lineto_rel dx, dy`, for dx and dy in -255 to 255. -/
def scriptLineto (dx dy : Int) : List Move :=
  scriptDelta (BitVec.ofNat 8 dx.natAbs) (BitVec.ofNat 8 dy.natAbs) ++ [.hostCmd (linetoByte dx dy)]

/-- What `waitdone` waits for: no busy bit of STATUS set (R303). -/
def notBusy (s : State) : Bool := getReg s .status &&& s.par.busyMask == 0x00

end Sys2Proof.Machine
end

