-- ==== Sys2Proof/Machine/Sequencer.lean ====
section
/-! DEFINITION. The sequencer: BUILD (R151), the boot (R355), the sync channel (R156), its completion handler (R158) and
the timing generator's fetch (R157). -/

namespace Sys2Proof.Machine

/-- The words of one block, repeated per its count (R151). -/
def blockWords (b : PatternBlock) : List Word := (List.replicate b.count b.words).flatten

/-- The flattened sequence of a scan format (R151). -/
def flatWords (f : ScanFormat) : List Word := f.flatMap blockWords

/-- BUILD (R151): the sequence written over the old entries, which stay behind it; SEQ_LEN; LineCounter 0. -/
def build (f : ScanFormat) (s : State) : State :=
  let ws := flatWords f
  (s.withSync { s.sync with seq := ws ++ s.sync.seq.drop ws.length, seqLen := ws.length }).withVideo
    { s.video with lineCounter := 0#10 }

/-- COLOR_LUT and FONT from the parameters (R355 item 2). -/
def loadTables (p : Params) : Tables :=
  { lutUnset := p.colorUnset, lutSet := p.colorSet, font := memLoad [] 0 (p.font.take fontBytes) }

/-- What the boot leaves (R351, R355) of a state whose scan format has passed the checks: every value R351 gives, and
the values it leaves unspecified (register file, FB, LB, sync_level, the other refill fields) as they were. -/
def bootState (s : State) : State :=
  let t := build s.par.scanFormat s
  { t with
    booted := true
    pagesel := initPagesel s.par.initDisplayPage s.par.initDrawPage
    vblankObserved := false
    sync := { t.sync with idx := 0, running := true, irqPending := false }
    tg := { t.tg with fifo := [], word := none, half := 0#1 }
    video := { t.video with lineActivePending := 0, frameComplete := false, outSel := 0 }
    refill := { t.refill with active := false }
    tables := loadTables s.par
    cmdq := []
    pageq := []
    cmd := none
    history := [] }

/-- The boot step (R355): an ill-formed scan format is refused (R152). -/
def bootStep (s : State) : Host.Outcome State Fault Refusal :=
  match formatError s.par with
  | some e => .refused (.illFormedScanFormat e)
  | none => .next (bootState s)

/-- SYNC is enabled: the channel runs and TGF has room (R156). -/
def syncEnabled (s : State) : Bool := s.sync.running && decide (s.tg.fifo.length < s.par.fifoDepth)

/-- SYNC moves one descriptor word (R156). -/
def syncMove (s : State) : State :=
  let n := s.sync.idx + 1
  let t := s.withTg { s.tg with fifo := s.tg.fifo ++ [s.sync.seq.getD s.sync.idx 0] }
  if n = s.sync.seqLen then t.withSync { s.sync with idx := n, running := false, irqPending := true }
  else t.withSync { s.sync with idx := n }

/-- The SYNC step: a hold where it is not enabled. -/
def syncStep (s : State) : State := if syncEnabled s then syncMove s else s

/-- The completion handler (R158), one atomic step. -/
def syncIrq (s : State) : State :=
  ((s.withSync { s.sync with idx := 0, running := true, irqPending := false }).withVideo
    { s.video with lineCounter := 0#10, frameComplete := true }).emit .frameSync

/-- The SYNC_IRQ step: a hold where no completion is pending (R322). -/
def syncIrqStep (s : State) : State := if s.sync.irqPending then syncIrq s else s

/-- TG fetches a word when it has none (R157); a hold on an empty TGF (R161). -/
def tgFetch (s : State) : State :=
  match s.tg.fifo with
  | [] => s
  | w :: ws => s.withTg { s.tg with fifo := ws, word := some w, half := 0#1 }

/-- The pulse descriptor TG executes next of a word (R159). -/
def tgDescriptor (half : BitVec 1) (w : Word) : Descriptor := if half = 0#1 then firstDescriptor w else secondDescriptor w

end Sys2Proof.Machine
end

