-- ==== Sys2Proof/Machine/Video.lean ====
section
/-! DEFINITION. The data channel with its line counter and ping-pong buffers (R171 to R177), and the colour-lookup
pipeline (R202 to R204). -/

namespace Sys2Proof.Machine

/-- The line buffer an invocation outputs: bit 2 of LineCounter (R172). -/
def outBuffer (l : BitVec 10) : BitVec 1 := l.extractLsb' 2 1

/-- Every 4th line an invocation triggers a refill (R171). -/
def refillDue (l : BitVec 10) : Bool := l.extractLsb' 0 2 == 0#2

/-- The logical row a refill reads: ((L >> 2) + 1) mod 256 (R171). -/
def refillRow (l : BitVec 10) : BitVec 8 := l.extractLsb' 2 8 + 1

/-- The first FB word of a row of a page (R175). -/
def rowSource (p : BitVec 2) (r : BitVec 8) : BitVec 14 := BitVec.ofNat 14 (p.toNat * 4096 + r.toNat * 16)

/-- DATA is enabled: a line-active event waits, and no unfinished refill holds it (R171, R174). -/
def dataEnabled (s : State) : Bool :=
  decide (0 < s.video.lineActivePending) &&
    !(s.refill.active && (s.refill.buf == outBuffer s.video.lineCounter || refillDue s.video.lineCounter))

/-- The DATA invocation (R171), one atomic step. -/
def dataInvoke (s : State) : State :=
  let l := s.video.lineCounter
  let b := outBuffer l
  let t := (s.withVideo
    { s.video with
      lineActivePending := s.video.lineActivePending - 1
      outSel := b
      lineCounter := l + 1
      frameComplete := false }).emit (.outLine (lineBytes (lineBuffer s.video b)))
  if refillDue l then
    t.withRefill { s.refill with active := true, buf := ~~~b, src := rowSource (displayPage s) (refillRow l), k := 0 }
  else t

/-- The DATA step: a hold where it is not enabled. -/
def dataStep (s : State) : State := if dataEnabled s then dataInvoke s else s

/-- The word a refill works on at output byte `k`: read anew at each 32nd byte (R202, R204). -/
def refillWordAt (s : State) : Word :=
  if s.refill.k % 32 = 0 then fbLoad s (s.refill.src.toNat + s.refill.k / 32) else s.refill.word

/-- LUTP writes one output byte (R204). -/
def lutpMove (s : State) : State :=
  let k := s.refill.k
  let w := refillWordAt s
  (s.withVideo (lineWrite s.video s.refill.buf k (lut s.tables (w.getLsbD (31 - k % 32))))).withRefill
    { s.refill with word := w, k := k + 1, active := decide (k + 1 ≠ 512) }

/-- The LUTP step: a hold where no refill is active. -/
def lutpStep (s : State) : State := if s.refill.active then lutpMove s else s

end Sys2Proof.Machine
end

