-- ==== Sys2Proof/Machine/Agents.lean ====
section
/-! DEFINITION. The agents that run instructions (CMD, TG, MIRROR's page switch), the access-by-access run of a command,
and what each move of the schedule does (R17, R18). -/

namespace Sys2Proof.Machine

/-- The register operands a command reads at its start, in order (R235). -/
def commandRegs : Instr → List Reg
  | .vec _ _ _ | .vecEq _ _ _ => vecRegs
  | .svec _ _ _ _ _ => svecRegs
  | .cursor | .char20 _ | .char40 _ => charRegs
  | .pen | .eraser | .pendown | .penup | .cls | .xyrst | .clsxy | .reset | .nop08 _ | .nop0B | .nop0C _ => []
  | .pulse _ _ | .pulseDs _ _ | .page _ _ _ => []

/-- The accesses a command makes after them (44_commands.md). A pulse or a page byte is no command and makes none. -/
def commandMicros : Instr → Gdp → State → List Micro
  | .pen => penMicros
  | .eraser => eraserMicros
  | .pendown => pendownMicros
  | .penup => penupMicros
  | .cls => clsMicros
  | .xyrst => xyrstMicros
  | .clsxy => clsxyMicros
  | .reset => resetMicros
  | .nop08 _ => nopMicros
  | .cursor => charMicros 0x80
  | .nop0B => nopMicros
  | .nop0C _ => nopMicros
  | .vec sy sx a => vecMicros sy sx a
  | .vecEq sy sx a => vecEqMicros sy sx a
  | .char20 g => charMicros g
  | .char40 g => charMicros g
  | .svec dx dy sy sx a => svecMicros dx dy sy sx a
  | .pulse _ _ => fun _ _ => []
  | .pulseDs _ _ => fun _ _ => []
  | .page _ _ _ => fun _ _ => []

/-- The position in a command that still has the accesses `ms` to make; none left is idle (R301). -/
def jobOf (ms : List Micro) (l : Latch) : Option Job :=
  match ms with
  | [] => none
  | _ => some (.doing ms l)

/-- The position in a command whose operands `rs` are still to be read; with none left, its other accesses follow. -/
def jobReading (i : Instr) (rs : List Reg) (l : Latch) (s : State) : Option Job :=
  match rs with
  | [] => jobOf (commandMicros i l.gdp s) l
  | _ => some (.reading i rs l)

/-- CMD takes the next command byte and stands at its first access; a hold on an empty CMDQ (R301). -/
def cmdStart (s : State) : State :=
  match s.cmdq with
  | [] => s
  | b :: q =>
    let i := decodeCommand b
    (s.withCmdq q).withCmd (jobReading i (commandRegs i) Latch.empty s)

/-- CMD makes one access (R16, R235). -/
def cmdStep (s : State) : State :=
  match s.cmd with
  | none => cmdStart s
  | some (.reading _ [] _) => s.withCmd none
  | some (.reading i (r :: rs) l) => s.withCmd (jobReading i rs (latchReg s l r) s)
  | some (.doing [] _) => s.withCmd none
  | some (.doing (m :: ms) l) => (access m (l, s)).2.withCmd (jobOf ms (access m (l, s)).1)

/-- CMD takes the next command byte and runs it to completion with no other agent's step between (R301); a hold while a
command is in progress or CMDQ is empty. -/
def cmdRun (s : State) : Host.Outcome State Fault Refusal :=
  match s.cmd, s.cmdq with
  | none, b :: q => exec (decodeCommand b) (s.withCmdq q)
  | _, _ => .next s

/-- TG fetches a word, or executes the next descriptor of the word it has (R157, R159, R160). -/
def tgStep (s : State) : Host.Outcome State Fault Refusal :=
  match s.tg.word with
  | none => .next (tgFetch s)
  | some w =>
    match decodeDescriptor (tgDescriptor s.tg.half w) with
    | .ok i => exec i s
    | .error .reservedDescriptor => .refused .reservedDescriptor

/-- MIRROR takes the next page byte (R304); a hold inside a command (R307) or on an empty PAGEQ. -/
def pageStep (s : State) : Host.Outcome State Fault Refusal :=
  match s.cmd, s.pageq with
  | none, b :: q => exec (decodePage b) (s.withPageq q)
  | _, _ => .next s

/-- The next move: the first the schedule has chosen, else a free one (R18), and the state with it taken. -/
def takeMove (s : State) : Move × State :=
  match s.sched with
  | m :: ms => (m, s.withSched ms)
  | [] => (Config.freeMove s.tick, s.withTick (s.tick + 1))

/-- What a move does after the boot. An agent that is not enabled holds: its move changes nothing (R18, R321). -/
def runMove (m : Move) (s : State) : Host.Outcome State Fault Refusal :=
  match m with
  | .sync => .next (syncStep s)
  | .tg => tgStep s
  | .syncIrq => .next (syncIrqStep s)
  | .data => .next (dataStep s)
  | .lutp => .next (lutpStep s)
  | .mirror => .next (mirrorStep s)
  | .pageSwitch => pageStep s
  | .cmdStep => .next (cmdStep s)
  | .cmdRun => cmdRun s
  | .hostSet r v => .next (setReg s r v)
  | .hostBits r clear set => .next (clearSetBits s r clear set)
  | .hostGet _ => .next s
  | .hostCmd b => .next (hostCmd b s)
  | .hostPage b => .next (hostPage b s)
  | .hostEntry index v => .next (hostEntry index v s)
  | .hostFormat _ => .refused .formatChangeWhilePlaying

/-- A state in which the boot has run, the command engine is idle, the byte is the next of CMDQ and CMD is to run it. -/
def placeCommand (s : State) (b : Byte) : State :=
  { s with booted := true, cmd := none, cmdq := b :: s.cmdq, sched := .cmdRun :: s.sched }

/-- A state in which the boot has run and TG is to execute the descriptor, the first half of its word. -/
def placeDescriptor (s : State) (d : Descriptor) : State :=
  { s with booted := true, tg := { s.tg with word := some (0#16 ++ d), half := 0 }, sched := .tg :: s.sched }

end Sys2Proof.Machine
end

