-- ==== Sys2Proof/Machine/Step.lean ====
section
/-! DEFINITION. One step of the machine, and the state whose next step fetches a given table word. -/

namespace Sys2Proof.Machine

/-- One step: the boot (R355) first, once; then one move of the schedule at a time (R18). -/
def step (s : State) : Host.Outcome State Fault Refusal :=
  match s.booted with
  | false => bootStep s
  | true => runMove (takeMove s).1 (takeMove s).2

/-- The state whose very next step fetches and runs the instruction of a table word (log 3): one byte is the next command
byte of CMDQ, two bytes the first pulse descriptor of TG's word, whose second half is 0. -/
def State.withFetchWord (s : State) (nbits w : Nat) : State :=
  if nbits = 8 then placeCommand s (BitVec.ofNat 8 w)
  else if nbits = 16 then placeDescriptor s (BitVec.ofNat 16 w)
  else s

end Sys2Proof.Machine
end

