-- ==== Sys2Proof/Safety.lean ====
section
/-! DEFINITION. What the statements observe of a run, and the invariants that every step keeps. -/

namespace Sys2Proof.Machine

/-! ### The framebuffer and drawing -/

/-- What a plot of mode `m` leaves of a pixel that was `old`; `hit` says the pixel is plotted (R291). -/
def drawn (m : DrawMode) (hit old : Bool) : Bool :=
  match m with
  | .draw => hit || old
  | .erase => !hit && old
  | .inert => old

/-- The pixel (x, y) is one of the points. -/
def hits (qs : List Point) (x : BitVec 9) (y : BitVec 8) : Bool := decide (((x.toNat : Int), (y.toNat : Int)) ∈ qs)

/-- The byte address `a` of FB lies in page `p` (R81). -/
def inPage (p : BitVec 2) (a : Nat) : Prop := a / 16384 = p.toNat

/-- The byte address `a` of FB lies in the word of an on-screen point of `qs`, on page `p`. -/
def storedAt (p : BitVec 2) (qs : List Point) (a : Nat) : Prop :=
  ∃ q ∈ qs, onScreen q = true ∧ a / 4 = fbIndex p (pixWord (BitVec.ofInt 9 q.1) (BitVec.ofInt 8 q.2))

/-- The framebuffer of `t` is that of `s` with the points `qs` plotted on draw_page in the mode of CTRL1, in pixels (R290,
R291) and in bytes. -/
def Draws (s t : State) (qs : List Point) : Prop :=
  (∀ (p : BitVec 2) (x : BitVec 9) (y : BitVec 8),
    pixel t.fb p x y =
      if p = drawPage s then drawn (modeOf s.gdp.ctrl1) (hits qs x y) (pixel s.fb p x y) else pixel s.fb p x y) ∧
    ∀ a : Nat, ¬ storedAt (drawPage s) qs a → memRead t.fb a = memRead s.fb a

/-- The byte memory `m` is the framebuffer of `s` with its draw page cleared (R225). -/
def Cleared (s : State) (m : Memory) : Prop :=
  (∀ a, inPage (drawPage s) a → memRead m a = 0) ∧ ∀ a, ¬ inPage (drawPage s) a → memRead m a = memRead s.fb a

/-! ### Registers after a command -/

/-- STATUS with the busy bits cleared (R303). -/
def busyCleared (s : State) : Byte := s.gdp.status &&& ~~~s.par.busyMask

/-- The registers after a command that leaves X and Y as given and ends with the busy clear (R39, R303). -/
def cursorAfter (s : State) (x y : BitVec 16) : Gdp :=
  { s.gdp with
    xmsb := x.extractLsb' 8 8
    xlsb := x.extractLsb' 0 8
    ymsb := y.extractLsb' 8 8
    ylsb := y.extractLsb' 0 8
    status := busyCleared s }

/-- The end point of a line from the cursor with the magnitudes given before axis forcing (R276), modulo 2^16. -/
def lineEndX (s : State) (sy sx a : BitVec 1) (m : Nat × Nat) : Int :=
  ((cursorX s.gdp).toNat : Int) + stepOf sx * ((forceAxis sy sx a m).1 : Int)
def lineEndY (s : State) (sy sx a : BitVec 1) (m : Nat × Nat) : Int :=
  ((cursorY s.gdp).toNat : Int) + stepOf sy * ((forceAxis sy sx a m).2 : Int)

/-- The registers after a vector command (R276, R278). -/
def afterVector (s : State) (sy sx a : BitVec 1) (m : Nat × Nat) : Gdp :=
  cursorAfter s (BitVec.ofInt 16 (lineEndX s sy sx a m)) (BitVec.ofInt 16 (lineEndY s sy sx a m))

/-- The registers after a character command (R257). -/
def afterCharacter (s : State) : Gdp :=
  if vertical s.gdp.ctrl2 = true then
    cursorAfter s (cursorX s.gdp) (BitVec.ofNat 16 ((cursorY s.gdp).toNat + 6 * scaleX s.gdp.csize))
  else cursorAfter s (BitVec.ofNat 16 ((cursorX s.gdp).toNat + 6 * scaleX s.gdp.csize)) (cursorY s.gdp)

/-! ### Runs -/

/-- A function applied `n` times. -/
def times {α : Type} (f : α → α) : Nat → α → α
  | 0, x => x
  | n + 1, x => times f n (f x)

/-- Moves made in order, stopping at the first that does not answer a next state. -/
def runMoves : List Move → State → Host.Outcome State Fault Refusal
  | [], s => .next s
  | m :: ms, s =>
    match runMove m s with
    | .next t => runMoves ms t
    | .fault f => .fault f
    | .refused r => .refused r

/-- The moves of the block's own agents, as against HOST's (R17). -/
def blockMove : Move → Bool
  | .sync | .tg | .syncIrq | .data | .lutp | .mirror | .pageSwitch | .cmdStep | .cmdRun => true
  | .hostSet _ _ | .hostBits _ _ _ | .hostGet _ | .hostCmd _ | .hostPage _ | .hostEntry _ _ | .hostFormat _ => false

/-- The moves of the interrupt handlers and of the video hardware, which touch no register (R326). -/
def videoMove : Move → Bool
  | .sync | .tg | .syncIrq | .data | .lutp => true
  | .mirror | .pageSwitch | .cmdStep | .cmdRun => false
  | .hostSet _ _ | .hostBits _ _ _ | .hostGet _ | .hostCmd _ | .hostPage _ | .hostEntry _ _ | .hostFormat _ => false

/-- The moves of CMD. -/
def commandMove : Move → Bool
  | .cmdStep | .cmdRun => true
  | .sync | .tg | .syncIrq | .data | .lutp | .mirror | .pageSwitch => false
  | .hostSet _ _ | .hostBits _ _ _ | .hostGet _ | .hostCmd _ | .hostPage _ | .hostEntry _ _ | .hostFormat _ => false

/-! ### Memory in canonical form -/

/-- Every memory of the state has its canonical form, and an active refill has a byte left to write (R55). -/
def MemoryInv (s : State) : Prop :=
  Memory.wf fbBytes s.fb = true ∧ Memory.wf lbBytes s.video.lb0 = true ∧ Memory.wf lbBytes s.video.lb1 = true ∧
    Memory.wf fontBytes s.tables.font = true ∧ Memory.wf s.par.regfileSize s.otherRegs = true ∧
    (s.refill.active = true → s.refill.k < 512)

/-! ### The sequencer -/

/-- After the boot: SEQ_LEN in 1..4096, sync_idx in 0..SEQ_LEN (R31), the channel runs exactly while words are left and
has its interrupt pending exactly when it is stopped (R46, R156, R158), TGF holds at most TG_FIFO_DEPTH words (R47), and
no word to be executed has a reserved bit set (R122). -/
def SequencerInv (s : State) : Prop :=
  s.booted = true →
    (1 ≤ s.sync.seqLen ∧ s.sync.seqLen ≤ 4096 ∧ s.sync.seqLen ≤ s.sync.seq.length) ∧
    s.sync.idx ≤ s.sync.seqLen ∧
    (s.sync.running = true ↔ s.sync.idx < s.sync.seqLen) ∧
    s.sync.irqPending = !s.sync.running ∧
    s.tg.fifo.length ≤ s.par.fifoDepth ∧
    (∀ w ∈ s.sync.seq.take s.sync.seqLen, wordWf w = true) ∧
    (∀ w ∈ s.tg.fifo, wordWf w = true) ∧
    (∀ w, s.tg.word = some w → wordWf w = true)

/-! ### The command in progress uses the draw page -/

/-- What is known of the page a command has read: nothing; that it is draw_page; that it is, or the mode is inert. -/
inductive PageKnown where
  | unknown
  | page
  | plot
  deriving DecidableEq, Repr

/-- The accesses left use a page only after reading draw_page (R225, R294). -/
def usesPageRead : PageKnown → List Micro → Bool
  | _, [] => true
  | _, .latchPage :: ms => usesPageRead .page ms
  | .page, .clearWord _ :: ms => usesPageRead .page ms
  | .unknown, .clearWord _ :: _ => false
  | .plot, .clearWord _ :: _ => false
  | .page, .plotMode :: ms => usesPageRead .page ms
  | _, .plotMode :: ms => usesPageRead .unknown ms
  | .page, .plotPage :: ms => usesPageRead .page ms
  | _, .plotPage :: ms => usesPageRead .plot ms
  | .unknown, .plotRead _ _ :: _ => false
  | k, .plotRead _ _ :: ms => usesPageRead k ms
  | .unknown, .plotWrite _ _ :: _ => false
  | k, .plotWrite _ _ :: ms => usesPageRead k ms
  | k, .put _ _ :: ms => usesPageRead k ms
  | k, .bits _ _ _ :: ms => usesPageRead k ms

/-- What is known holds of the values read. -/
def PageKnown.holds (k : PageKnown) (l : Latch) (p : BitVec 2) : Prop :=
  match k with
  | .unknown => True
  | .page => l.page = p
  | .plot => l.mode = .inert ∨ l.page = p

/-- Every access of the command in progress that uses a page uses draw_page (R294: no page switch falls inside a
command). -/
def DrawPageInv (s : State) : Prop :=
  ∀ ms l, s.cmd = some (.doing ms l) → ∃ k : PageKnown, k.holds l (drawPage s) ∧ usesPageRead k ms = true

/-- The invariant that every step keeps. -/
def Inv (s : State) : Prop := MemoryInv s ∧ SequencerInv s ∧ DrawPageInv s

/-! ### Playback, as the history shows it -/

/-- The events of one pulse descriptor (R159, R160). -/
def descriptorEvents (bias : Nat) (d : Descriptor) : List Event :=
  .syncPulse (d.extractLsb' 10 1) ((d.extractLsb' 0 10).toNat + bias) :: (if d.getLsbD 11 then [.lineActive] else [])

/-- The events of one descriptor word: bits 15:0 first (R121). -/
def wordEvents (bias : Nat) (w : Word) : List Event :=
  descriptorEvents bias (firstDescriptor w) ++ descriptorEvents bias (secondDescriptor w)

/-- The events TG has still to emit for the word it has. -/
def pendingEvents (bias : Nat) (t : Timing) : List Event :=
  match t.word with
  | none => []
  | some w => if t.half = 0#1 then wordEvents bias w else descriptorEvents bias (secondDescriptor w)

/-- The event is one TG emits. -/
def Event.isTiming : Event → Bool
  | .syncPulse _ _ => true
  | .lineActive => true
  | .frameSync => false
  | .outLine _ => false

/-- The event is a FrameSync, a LineActive, an OutLine. -/
def Event.isFrameSync : Event → Bool
  | .frameSync => true
  | _ => false
def Event.isLineActive : Event → Bool
  | .lineActive => true
  | _ => false
def Event.isOutLine : Event → Bool
  | .outLine _ => true
  | _ => false

/-- Cyclic playback (R163): what TG has emitted, and what it and TGF still hold, are together the events of the whole
passes of the sequence, as many as there are FrameSync events, and of the words the sync channel has moved since. -/
def PlaybackInv (s : State) : Prop :=
  s.booted = true →
    s.history.filter Event.isTiming ++ pendingEvents s.par.durationBias s.tg ++
        s.tg.fifo.flatMap (wordEvents s.par.durationBias) =
      (List.replicate (s.history.countP Event.isFrameSync)
          ((s.sync.seq.take s.sync.seqLen).flatMap (wordEvents s.par.durationBias))).flatten ++
        (s.sync.seq.take s.sync.idx).flatMap (wordEvents s.par.durationBias)

/-- The flag the last FrameSync or OutLine of a history leaves (R176). -/
def frameFlag (h : List Event) : Bool :=
  h.foldl (fun f e => match e with
    | .frameSync => true
    | .outLine _ => false
    | .syncPulse _ _ => f
    | .lineActive => f) false

/-- The OutLine events of a history since its last FrameSync. -/
def linesSinceSync (h : List Event) : Nat :=
  h.foldl (fun n e => match e with
    | .frameSync => 0
    | .outLine _ => n + 1
    | .syncPulse _ _ => n
    | .lineActive => n) 0

/-- Lines and flags, as the history shows them, after the boot: no line-active event is lost (R325), frame_complete is 1
exactly from a FrameSync to the next served line (R176), and LineCounter counts, modulo 1024, the lines served since the
last FrameSync (R173). -/
def LineInv (s : State) : Prop :=
  s.booted = true →
    s.history.countP Event.isLineActive = s.video.lineActivePending + s.history.countP Event.isOutLine ∧
    s.video.frameComplete = frameFlag s.history ∧
    s.video.lineCounter = BitVec.ofNat 10 (linesSinceSync s.history)

/-! ### The command table -/

/-- The (mask, match) pairs of the command rows of spec/opcode_table.json, in its order. -/
def commandRows : List (Byte × Byte) :=
  [(0xFF, 0x00), (0xFF, 0x01), (0xFF, 0x02), (0xFF, 0x03), (0xFF, 0x04), (0xFF, 0x05), (0xFF, 0x06), (0xFF, 0x07),
    (0xFE, 0x08), (0xFF, 0x0A), (0xFF, 0x0B), (0xFC, 0x0C), (0xF8, 0x10), (0xF8, 0x18), (0xE0, 0x20), (0xC0, 0x40),
    (0x80, 0x80)]

/-- The place of an instruction's row in `commandRows`; an instruction that is no command has none. -/
def commandRow : Instr → Option Nat
  | .pen => some 0
  | .eraser => some 1
  | .pendown => some 2
  | .penup => some 3
  | .cls => some 4
  | .xyrst => some 5
  | .clsxy => some 6
  | .reset => some 7
  | .nop08 _ => some 8
  | .cursor => some 9
  | .nop0B => some 10
  | .nop0C _ => some 11
  | .vec _ _ _ => some 12
  | .vecEq _ _ _ => some 13
  | .char20 _ => some 14
  | .char40 _ => some 15
  | .svec _ _ _ _ _ => some 16
  | .pulse _ _ => none
  | .pulseDs _ _ => none
  | .page _ _ _ => none

/-- The instruction is a command byte's. -/
def isCommand (i : Instr) : Bool := (commandRow i).isSome

end Sys2Proof.Machine
end

