-- ==== Sys2Proof/Certificates/Slice0/Obligations.lean ====
section
/-! DEFINITION. The statements for the provers. Each docstring names the rule of spec/ it formalises. -/

open Sys2Proof Sys2Proof.Machine

/-! ### Encodings -/

/-- Words written out from 30_encoding.md (vectors V1 to V15, V19a, V92 of 95_test_vectors.md). The bytes of the low commands
0x00 to 0x03 and the SVEC fields are the spec's own general knowledge (R112, R114, log 15). -/
def Obligations.SpecWordsDecode : Prop :=
  decodeCommand 0x00 = .pen ∧ decodeCommand 0x03 = .penup ∧ decodeCommand 0x07 = .reset ∧
    decodeCommand 0x09 = .nop08 1 ∧ decodeCommand 0x0A = .cursor ∧ decodeCommand 0x0F = .nop0C 3 ∧
    decodeCommand 0x17 = .vec 1 1 1 ∧ decodeCommand 0x18 = .vecEq 0 0 0 ∧ decodeCommand 0x20 = .char20 0x20 ∧
    decodeCommand 0x7F = .char40 0x7F ∧ decodeCommand 0xE9 = .svec 3 1 0 0 1 ∧
    decodeDescriptor 0x0460 = .ok (.pulse 1 96) ∧ decodeDescriptor 0x0BFF = .ok (.pulseDs 0 1023) ∧
    decodePage 0xE5 = .page 3 2 5

/-- Decode of the encoding of every well-formed instruction is that instruction (30_encoding.md). Some field
places are the spec's own general knowledge (R112, R114, log 15). -/
def Obligations.DecodeOfEncodeIsTheInstruction : Prop :=
  ∀ i : Instr, i.wf = true → decode (encode i) = .ok i

/-- Every word a decoder accepts is the encoding of what it answers, and that is well-formed: no bit is dropped and no
two words have one meaning (R119, R122, R124). -/
def Obligations.EncodeOfDecodeIsTheWord : Prop :=
  ∀ (c : Code) (i : Instr), decode c = .ok i → encode i = c ∧ i.wf = true

/-- R119: each byte matches exactly one row of the command table, the row of the instruction it decodes to. -/
def Obligations.EachByteHasOneCommandRow : Prop :=
  ∀ b : Byte, ∃ n, commandRow (decodeCommand b) = some n ∧
    ∀ k, k < commandRows.length →
      ((b &&& (commandRows.getD k (0, 0)).1 = (commandRows.getD k (0, 0)).2) ↔ k = n)

/-- R122: bits 15:12 and 11 of a descriptor decide what it is; a scan format with a reserved descriptor is refused at boot. -/
def Obligations.DescriptorsDecodeByTheirTopBits : Prop :=
  (∀ d : Descriptor,
    decodeDescriptor d =
      if d.extractLsb' 12 4 = 0#4 then
        (if d.getLsbD 11 then .ok (.pulseDs (d.extractLsb' 10 1) (d.extractLsb' 0 10))
          else .ok (.pulse (d.extractLsb' 10 1) (d.extractLsb' 0 10)))
      else .error .reservedDescriptor) ∧
    ∀ s : State, s.booted = false →
      (∃ b ∈ s.par.scanFormat, ∃ w ∈ b.words,
        (w.extractLsb' 12 4 : BitVec 4) ≠ 0 ∨ (w.extractLsb' 28 4 : BitVec 4) ≠ 0) →
      ∃ e, step s = .refused (.illFormedScanFormat e)

/-! ### Boot and reset -/

/-- R351, R355: the boot step of a state whose scan format passes the checks gives every value of the table of R351; what
the table leaves unspecified is whatever the state had, so it is any value (R350). -/
def Obligations.BootLeavesTheStartState : Prop :=
  ∀ s : State, s.booted = false → formatError s.par = none →
    ∃ t, step s = .next t ∧ t.booted = true ∧ t.par = s.par ∧
      (t.gdp = s.gdp ∧ t.otherRegs = s.otherRegs ∧ t.fb = s.fb ∧ t.video.lb0 = s.video.lb0 ∧
        t.video.lb1 = s.video.lb1 ∧ t.tg.level = s.tg.level ∧ t.refill = { s.refill with active := false }) ∧
      (displayPage t = s.par.initDisplayPage ∧ drawPage t = s.par.initDrawPage) ∧
      (t.sync.seq.take t.sync.seqLen = flatWords s.par.scanFormat ∧ t.sync.seqLen = (flatWords s.par.scanFormat).length ∧
        t.sync.idx = 0 ∧ t.sync.running = true ∧ t.sync.irqPending = false) ∧
      (t.tg.fifo = [] ∧ t.tg.word = none ∧ t.tg.half = 0) ∧
      (t.video.lineActivePending = 0 ∧ t.video.lineCounter = 0 ∧ t.video.frameComplete = false ∧ t.video.outSel = 0) ∧
      t.vblankObserved = false ∧ t.cmdq = [] ∧ t.pageq = [] ∧ t.cmd = none ∧ t.history = [] ∧
      (∀ bit : Bool, lut t.tables bit = if bit then s.par.colorSet else s.par.colorUnset) ∧
      ∀ g c, g < 97 → c < 5 → fontByte t.tables g c = s.par.font.getD (5 * g + c) 0

/-- R151, R153: BUILD writes each block's words, repeated per its count, block after block, leaves later entries as they
were, zeroes LineCounter, and writes nothing else. -/
def Obligations.BuildFlattensTheFormat : Prop :=
  ∀ (f : ScanFormat) (s : State),
    (build f s).sync.seqLen = formatLength f ∧ (build f s).video.lineCounter = 0 ∧
      build f s = { s with
        sync := { s.sync with seq := (build f s).sync.seq, seqLen := (build f s).sync.seqLen }
        video := { s.video with lineCounter := 0 } } ∧
      (∀ (pre : ScanFormat) (b : PatternBlock) (post : ScanFormat) (rep k : Nat),
        f = pre ++ b :: post → rep < b.count → k < b.words.length →
          (build f s).sync.seq[formatLength pre + rep * b.words.length + k]? = b.words[k]?) ∧
      (∀ n, formatLength f ≤ n → (build f s).sync.seq[n]? = s.sync.seq[n]?) ∧
      (formatError { s.par with scanFormat := f } = none → 1 ≤ (build f s).sync.seqLen ∧ (build f s).sync.seqLen ≤ 4096)

/-- R152: before the boot, a step refuses the launch exactly when one of the five checks fails. That the bound of 4 blocks,
which R152 lets a model lift, is kept, and that PERIOD may be absent, its check then skipped, is the model's choice (log 17). -/
def Obligations.IllFormedFormatsAreRefused : Prop :=
  ∀ s : State, s.booted = false →
    ((∃ e, step s = .refused (.illFormedScanFormat e)) ↔
      ¬ (s.par.scanFormat.length ≤ 4 ∧
        (∀ b ∈ s.par.scanFormat, b.words.length = 1 ∨ b.words.length = 2) ∧
        (1 ≤ (s.par.scanFormat.map fun b => b.words.length * b.count).sum ∧
          (s.par.scanFormat.map fun b => b.words.length * b.count).sum ≤ 4096) ∧
        (∀ b ∈ s.par.scanFormat, ∀ w ∈ b.words,
          (w.extractLsb' 12 4 : BitVec 4) = 0 ∧ (w.extractLsb' 28 4 : BitVec 4) = 0) ∧
        ∀ t, s.par.period = some t →
          ((flatWords s.par.scanFormat).map fun w =>
            ((w.extractLsb' 0 10 : BitVec 10).toNat + s.par.durationBias) +
              ((w.extractLsb' 16 10 : BitVec 10).toNat + s.par.durationBias)).sum = t))

/-- The values the spec gives of the state right after reset. That State.reset is the state before the boot is the model's
choice (log 3); no value the spec leaves unspecified is stated (R31, R32, R46 to R58, R350). -/
def Obligations.ResetHoldsTheValuesGiven : Prop :=
  State.reset.booted = false ∧
    (State.reset.sync.idx = 0 ∧ State.reset.sync.running = false ∧ State.reset.sync.irqPending = false) ∧
    (State.reset.tg.fifo = [] ∧ State.reset.tg.word = none ∧ State.reset.tg.half = 0) ∧
    (State.reset.video.lineActivePending = 0 ∧ State.reset.video.lineCounter = 0 ∧
      State.reset.video.frameComplete = false ∧ State.reset.video.outSel = 0) ∧
    State.reset.vblankObserved = false ∧ State.reset.refill.active = false ∧ State.reset.cmdq = [] ∧
    State.reset.pageq = [] ∧ State.reset.cmd = none ∧ State.reset.history = [] ∧
    displayPage State.reset = Config.params.initDisplayPage ∧ drawPage State.reset = Config.params.initDrawPage

/-! ### Low commands -/

/-- R221 to R224, R303: PEN, ERASER, PENDOWN and PENUP set or clear one bit of CTRL1, clear the busy bits, and change
nothing else. Which byte does which is the spec's own general knowledge (R112, D22, log 15). -/
def Obligations.PenCommandsChangeOneModeBit : Prop :=
  ∀ s : State,
    exec .pen s = .next (s.withGdp { s.gdp with ctrl1 := s.gdp.ctrl1 ||| 0x02, status := busyCleared s }) ∧
    exec .eraser s = .next (s.withGdp { s.gdp with ctrl1 := s.gdp.ctrl1 &&& ~~~0x02, status := busyCleared s }) ∧
    exec .pendown s = .next (s.withGdp { s.gdp with ctrl1 := s.gdp.ctrl1 ||| 0x01, status := busyCleared s }) ∧
    exec .penup s = .next (s.withGdp { s.gdp with ctrl1 := s.gdp.ctrl1 &&& ~~~0x01, status := busyCleared s })

/-- R226, R303: XYRST zeroes the cursor, clears the busy bits, and changes nothing else. -/
def Obligations.XyrstZeroesTheCursor : Prop :=
  ∀ s : State, exec .xyrst s = .next (s.withGdp (cursorAfter s 0 0))

/-- R232, R303: NOP only clears the busy bits, whatever its reserved bits. -/
def Obligations.NopOnlyClearsTheBusyBits : Prop :=
  ∀ (s : State) (r1 : BitVec 1) (r2 : BitVec 2),
    exec (.nop08 r1) s = .next (s.withGdp { s.gdp with status := busyCleared s }) ∧
    exec .nop0B s = .next (s.withGdp { s.gdp with status := busyCleared s }) ∧
    exec (.nop0C r2) s = .next (s.withGdp { s.gdp with status := busyCleared s })

/-- R225, R227, R228, R303: CLS clears every byte of the draw page and no other; CLSXY also zeroes the cursor; RESET also
loads CTRL1, CTRL2 and CSIZE. Nothing else changes but the busy bits. -/
def Obligations.ClearCommandsClearTheDrawPage : Prop :=
  ∀ s : State, ∃ m : Memory, Cleared s m ∧
    exec .cls s = .next ((s.withFb m).withGdp { s.gdp with status := busyCleared s }) ∧
    exec .clsxy s = .next ((s.withFb m).withGdp (cursorAfter s 0 0)) ∧
    exec .reset s = .next ((s.withFb m).withGdp
      { cursorAfter s 0 0 with ctrl1 := s.par.cmd7Ctrl1, ctrl2 := s.par.cmd7Ctrl2, csize := s.par.cmd7Csize })

/-- S3: after a clear every pixel of the draw page is unset and every pixel of the other pages is as before (R225). -/
def Obligations.ClearUnsetsEveryPixel : Prop :=
  ∀ s : State, ∃ t, exec .cls s = .next t ∧
    ∀ (p : BitVec 2) (x : BitVec 9) (y : BitVec 8),
      pixel t.fb p x y = if p = drawPage s then false else pixel s.fb p x y

/-- R303: every command, NOP included, ends with the busy bits of STATUS cleared and its other bits as they were, so that
the host sees it done. -/
def Obligations.EveryCommandClearsTheBusyBits : Prop :=
  ∀ (i : Instr) (s : State), isCommand i = true →
    ∃ t, exec i s = .next t ∧ t.gdp.status = s.gdp.status &&& ~~~s.par.busyMask ∧ notBusy t = true

/-! ### Vectors -/

/-- R276, R278, R303: each vector command ends with the cursor at its end point modulo 2^16 and the busy bits cleared;
apart from the framebuffer nothing else changes, and its last plotted point is the end point. -/
def Obligations.VectorsMoveTheCursor : Prop :=
  ∀ (dx dy : BitVec 2) (sy sx a : BitVec 1) (s : State),
    (∃ m, exec (.vec sy sx a) s =
      .next ((s.withFb m).withGdp (afterVector s sy sx a (s.gdp.deltax.toNat, s.gdp.deltay.toNat)))) ∧
    (∃ m, exec (.vecEq sy sx a) s =
      .next ((s.withFb m).withGdp (afterVector s sy sx a
        (max s.gdp.deltax.toNat s.gdp.deltay.toNat, max s.gdp.deltax.toNat s.gdp.deltay.toNat)))) ∧
    (∃ m, exec (.svec dx dy sy sx a) s =
      .next ((s.withFb m).withGdp (afterVector s sy sx a (dx.toNat, dy.toNat)))) ∧
    ∀ m : Nat × Nat, (vectorPoints s.gdp sy sx a m).getLast? = some (lineEndX s sy sx a m, lineEndY s sy sx a m)

/-- R270, R290: each vector command answers a next state in which exactly the pixels of its points that lie on the screen
are set or cleared on the draw page, and every other byte of the framebuffer is as before. -/
def Obligations.VectorsDrawTheirPoints : Prop :=
  ∀ (dx dy : BitVec 2) (sy sx a : BitVec 1) (s : State),
    (∃ t, exec (.vec sy sx a) s = .next t ∧
      Draws s t (vectorPoints s.gdp sy sx a (s.gdp.deltax.toNat, s.gdp.deltay.toNat))) ∧
    (∃ t, exec (.vecEq sy sx a) s = .next t ∧
      Draws s t (vectorPoints s.gdp sy sx a
        (max s.gdp.deltax.toNat s.gdp.deltay.toNat, max s.gdp.deltax.toNat s.gdp.deltay.toNat))) ∧
    ∃ t, exec (.svec dx dy sy sx a) s = .next t ∧ Draws s t (vectorPoints s.gdp sy sx a (dx.toNat, dy.toNat))

/-- R275: a line plots max(dx, dy) + 1 pairwise distinct points, the start point first. -/
def Obligations.LinePointsAreDistinct : Prop :=
  ∀ (x0 y0 : Int) (dx dy : Nat) (sx sy : BitVec 1),
    (linePoints x0 y0 dx dy (stepOf sx) (stepOf sy)).length = max dx dy + 1 ∧
      (linePoints x0 y0 dx dy (stepOf sx) (stepOf sy)).Nodup ∧
      (linePoints x0 y0 dx dy (stepOf sx) (stepOf sy)).head? = some (x0, y0)

/-- R117: the eight directions of the bits SY SX A, as the magnitudes used and the steps. -/
def Obligations.DirectionBitsNameEightDirections : Prop :=
  ∀ dx dy : Nat,
    (forceAxis 0 0 0 (dx, dy) = (dx, 0) ∧ forceAxis 0 0 1 (dx, dy) = (dx, dy) ∧
      forceAxis 0 1 0 (dx, dy) = (0, dy) ∧ forceAxis 0 1 1 (dx, dy) = (dx, dy) ∧
      forceAxis 1 0 0 (dx, dy) = (0, dy) ∧ forceAxis 1 0 1 (dx, dy) = (dx, dy) ∧
      forceAxis 1 1 0 (dx, dy) = (dx, 0) ∧ forceAxis 1 1 1 (dx, dy) = (dx, dy)) ∧
    stepOf 0 = 1 ∧ stepOf 1 = -1

/-- R280: the source's line. On an unset draw page, with CTRL1 bits 1:0 = 11, DELTAX = 0x10, DELTAY = 0 and the cursor at
(100, 100), VEC 0x11 and VEC 0x10 set exactly the 17 pixels (100..116, 100) and leave the cursor at (116, 100). -/
def Obligations.SourceLineSetsSeventeenPixels : Prop :=
  ∀ s : State, modeOf s.gdp.ctrl1 = .draw → s.gdp.deltax = 0x10 → s.gdp.deltay = 0x00 →
    cursorX s.gdp = 100 → cursorY s.gdp = 100 → (∀ x y, pixel s.fb (drawPage s) x y = false) →
    ∀ b : Byte, b = 0x11 ∨ b = 0x10 →
      ∃ t, exec (decodeCommand b) s = .next t ∧ cursorX t.gdp = 116 ∧ cursorY t.gdp = 100 ∧
        ∀ x y, (pixel t.fb (drawPage s) x y = true ↔ 100 ≤ x.toNat ∧ x.toNat ≤ 116 ∧ y.toNat = 100)

/-- R128: a short vector is the vector command with its magnitudes from the byte; DELTAX and DELTAY keep their values. -/
def Obligations.ShortVectorsAreVectors : Prop :=
  ∀ (dx dy : BitVec 2) (sy sx a : BitVec 1) (s : State),
    ∃ t, exec (.vec sy sx a) (s.withGdp { s.gdp with deltax := dx.setWidth 8, deltay := dy.setWidth 8 }) = .next t ∧
      exec (.svec dx dy sy sx a) s = .next (t.withGdp { t.gdp with deltax := s.gdp.deltax, deltay := s.gdp.deltay })

/-! ### Characters -/

/-- R257, R303: a character command advances the primary axis by 6 times the x-scale modulo 2^16 and clears the busy bits;
apart from the framebuffer nothing else changes. -/
def Obligations.CharactersAdvanceTheCursor : Prop :=
  ∀ (g : Byte) (s : State),
    (∃ m, exec (.char20 g) s = .next ((s.withFb m).withGdp (afterCharacter s))) ∧
    (∃ m, exec (.char40 g) s = .next ((s.withFb m).withGdp (afterCharacter s))) ∧
    ∃ m, exec .cursor s = .next ((s.withFb m).withGdp (afterCharacter s))

/-- R250, R256, R258: a character command answers a next state in which exactly its glyph's points are plotted on the draw
page; and those are, with the draw enable set, the points of the set font bits, scaled, skewed and swapped as CSIZE and
CTRL2 say. -/
def Obligations.CharactersDrawTheirGlyph : Prop :=
  (∀ (g : Byte) (s : State),
    (∃ t, exec (.char20 g) s = .next t ∧ Draws s t (charPoints s.par s.tables g s.gdp)) ∧
    (∃ t, exec (.char40 g) s = .next t ∧ Draws s t (charPoints s.par s.tables g s.gdp)) ∧
    ∃ t, exec .cursor s = .next t ∧ Draws s t (charPoints s.par s.tables 0x80 s.gdp)) ∧
  ∀ (p : Params) (t : Tables) (a : Byte) (g : Gdp) (q : Point),
    q ∈ charPoints p t a g ↔
      g.ctrl1.getLsbD 0 = true ∧
        ∃ c i r j : Nat, c < 5 ∧ i < scaleX g.csize ∧ r < 8 ∧ j < scaleY g.csize ∧
          (fontByte t (glyphIndex a) c).getLsbD r = true ∧
          ∃ v : Int,
            v = (r * scaleY g.csize + j : Nat) +
              (if g.ctrl2.getLsbD 2 = true then skewOffset p (c * scaleX g.csize + i) else 0) ∧
            q = if g.ctrl2.getLsbD 3 = true then
                (((cursorX g).toNat : Int) + v, ((cursorY g).toNat : Int) + (c * scaleX g.csize + i : Nat))
              else (((cursorX g).toNat : Int) + (c * scaleX g.csize + i : Nat), ((cursorY g).toNat : Int) + v)

/-- R252: glyph codes 0x20 to 0x80 select their own glyph and any other the space; a command byte passes only 0x20 to 0x7F. -/
def Obligations.GlyphCodesOutOfRangeAreTheSpace : Prop :=
  (∀ a : Byte, glyphIndex a = if 0x20 ≤ a.toNat ∧ a.toNat ≤ 0x80 then a.toNat - 0x20 else 0) ∧
    (∀ (a : Byte) (s : State), (a.toNat < 0x20 ∨ 0x80 < a.toNat) → exec (.char20 a) s = exec (.char20 0x20) s) ∧
    ∀ b g : Byte, decodeCommand b = .char20 g ∨ decodeCommand b = .char40 g → 0x20 ≤ g.toNat ∧ g.toNat ≤ 0x7F

/-- R253: each scale is its nibble of CSIZE, 0 read as 16. Which nibble is which is the spec's own general knowledge (R37,
D25, log 15). -/
def Obligations.ScalesReadZeroAsSixteen : Prop :=
  ∀ c : Byte,
    scaleX c = (if c.toNat / 16 = 0 then 16 else c.toNat / 16) ∧ scaleY c = (if c.toNat % 16 = 0 then 16 else c.toNat % 16)

/-! ### Plots -/

/-- R290 to R292: the accesses of a plot are none outside the screen, and otherwise set, clear or leave one pixel of the
draw page as CTRL1 says; every other pixel, byte and field is as before. -/
def Obligations.PlotChangesOnePixel : Prop :=
  ∀ (q : Point) (l : Latch) (s : State),
    (¬ (0 ≤ q.1 ∧ q.1 < 512 ∧ 0 ≤ q.2 ∧ q.2 < 256) → plotMicros q = []) ∧
      Draws s (accesses (plotMicros q) (l, s)).2 [q] ∧
      (accesses (plotMicros q) (l, s)).2 = s.withFb (accesses (plotMicros q) (l, s)).2.fb

/-- R293: with CTRL1 bits 1:0 at 00 or 10 no vector and no character command writes the framebuffer. -/
def Obligations.InertModesWriteNothing : Prop :=
  ∀ (dx dy : BitVec 2) (sy sx a : BitVec 1) (g : Byte) (s : State), s.gdp.ctrl1.getLsbD 0 = false →
    ∀ i : Instr,
      i = .vec sy sx a ∨ i = .vecEq sy sx a ∨ i = .svec dx dy sy sx a ∨ i = .char20 g ∨ i = .char40 g ∨ i = .cursor →
      ∃ t, exec i s = .next t ∧ t.fb = s.fb

/-- R82, R83: the pixel addressing formula, injective within one page and onto its 4096 words of 32 bits. -/
def Obligations.PixelAddressingIsABijection : Prop :=
  (∀ (x : BitVec 9) (y : BitVec 8),
    (pixWord x y).toNat = ((255 - y.toNat) * 16 + x.toNat / 32) % 4096 ∧ pixBit x = 31 - x.toNat % 32) ∧
    (∀ (x x' : BitVec 9) (y y' : BitVec 8), pixWord x y = pixWord x' y' → pixBit x = pixBit x' → x = x' ∧ y = y') ∧
    ∀ (w : BitVec 12) (n : Nat), n < 32 → ∃ x y, pixWord x y = w ∧ pixBit x = n

/-! ### The sequencer -/

/-- R159, R160: PULSE and PULSE_DS drive the level, record the pulse, PULSE_DS also signals data start, and TG goes on to the
other half or is done with the word; nothing else changes. -/
def Obligations.PulsesDriveTheLevel : Prop :=
  ∀ (lvl : BitVec 1) (dur : BitVec 10) (s : State),
    exec (.pulse lvl dur) s = .next
      { s with
        tg := if s.tg.half = 0#1 then { s.tg with level := lvl, half := 1#1 } else { s.tg with level := lvl, word := none }
        history := s.history ++ [.syncPulse lvl (dur.toNat + s.par.durationBias)] } ∧
    exec (.pulseDs lvl dur) s = .next
      { s with
        tg := if s.tg.half = 0#1 then { s.tg with level := lvl, half := 1#1 } else { s.tg with level := lvl, word := none }
        video := { s.video with lineActivePending := s.video.lineActivePending + 1 }
        history := s.history ++ [.syncPulse lvl (dur.toNat + s.par.durationBias), .lineActive] }

/-- R156: the SYNC step moves one word when the channel runs and TGF has room, stops and raises the interrupt at the last
word, and holds otherwise. -/
def Obligations.SyncMovesOneWord : Prop :=
  ∀ s : State,
    (s.sync.running = false ∨ s.par.fifoDepth ≤ s.tg.fifo.length → runMove .sync s = .next s) ∧
    (s.sync.running = true → s.tg.fifo.length < s.par.fifoDepth →
      runMove .sync s = .next
        { s with
          tg := { s.tg with fifo := s.tg.fifo ++ [s.sync.seq.getD s.sync.idx 0] }
          sync := if s.sync.idx + 1 = s.sync.seqLen then { s.sync with idx := s.sync.idx + 1, running := false, irqPending := true }
            else { s.sync with idx := s.sync.idx + 1 } })

/-- R158: the completion handler restarts the channel, zeroes LineCounter, sets frame_complete and emits FrameSync, and
changes nothing else; it holds while no completion is pending. -/
def Obligations.SyncIrqRestartsTheChannel : Prop :=
  ∀ s : State,
    (s.sync.irqPending = false → runMove .syncIrq s = .next s) ∧
    (s.sync.irqPending = true →
      runMove .syncIrq s = .next
        { s with
          sync := { s.sync with idx := 0, running := true, irqPending := false }
          video := { s.video with lineCounter := 0, frameComplete := true }
          history := s.history ++ [.frameSync] })

/-- R157, R161: with no word TG takes the head of TGF, and holds on an empty TGF. -/
def Obligations.TimingGeneratorFetches : Prop :=
  ∀ s : State, s.tg.word = none →
    (s.tg.fifo = [] → runMove .tg s = .next s) ∧
    ∀ w ws, s.tg.fifo = w :: ws → runMove .tg s = .next { s with tg := { s.tg with fifo := ws, word := some w, half := 0 } }

/-! ### The video pipeline -/

/-- R171, R173, R175: an enabled DATA invocation with LineCounter L hands out line buffer L[2], advances LineCounter modulo
1024, clears frame_complete, and every 4th line starts a refill of the other buffer from row ((L >> 2) + 1) mod 256 of the
display page; nothing else changes. -/
def Obligations.DataServesOneLine : Prop :=
  ∀ (s : State) (l : Nat), l = s.video.lineCounter.toNat → 0 < s.video.lineActivePending →
    ¬ (s.refill.active = true ∧ (s.refill.buf.toNat = l / 4 % 2 ∨ l % 4 = 0)) →
    ∃ t, runMove .data s = .next t ∧
      t = { s with video := t.video, refill := t.refill, history := t.history } ∧
      t.history = s.history ++ [.outLine (lineBytes (if l / 4 % 2 = 0 then s.video.lb0 else s.video.lb1))] ∧
      t.video = { s.video with
        lineActivePending := s.video.lineActivePending - 1
        outSel := BitVec.ofNat 1 (l / 4)
        lineCounter := BitVec.ofNat 10 ((l + 1) % 1024)
        frameComplete := false } ∧
      t.refill =
        if l % 4 = 0 then
          { s.refill with
            active := true
            buf := BitVec.ofNat 1 (1 - l / 4 % 2)
            src := BitVec.ofNat 14 ((s.pagesel.toNat / 64 % 4) * 4096 + ((l / 4 + 1) % 256) * 16)
            k := 0 }
        else s.refill

/-- R171, R174: DATA holds with no line-active event, and while a refill is active into the buffer it would output or on a
line that would start another. -/
def Obligations.DataHoldsOnAnUnfinishedRefill : Prop :=
  ∀ (s : State) (l : Nat), l = s.video.lineCounter.toNat →
    s.video.lineActivePending = 0 ∨ (s.refill.active = true ∧ (s.refill.buf.toNat = l / 4 % 2 ∨ l % 4 = 0)) →
    runMove .data s = .next s

/-- R172, R178: without a FrameSync between, the refill an enabled invocation at L starts fills the buffer that the
invocations at L + 4 to L + 7 output, from its first byte on, from the row of the display page that those lines show, their
line number divided by 4. -/
def Obligations.RefillFeedsTheNextRow : Prop :=
  ∀ (s : State) (j : Nat) (l : BitVec 10), dataEnabled s = true → refillDue s.video.lineCounter = true → j < 4 →
    l = s.video.lineCounter + BitVec.ofNat 10 (4 + j) →
    (dataStep s).refill.active = true ∧ (dataStep s).refill.k = 0 ∧ (dataStep s).refill.buf = outBuffer l ∧
      (dataStep s).refill.src = rowSource (displayPage s) (BitVec.ofNat 8 (l.toNat / 4))

/-- R204: one LUTP step, and its hold while no refill is active. -/
def Obligations.LookupWritesOneByte : Prop :=
  ∀ s : State,
    (s.refill.active = false → runMove .lutp s = .next s) ∧
    (s.refill.active = true →
      ∃ t w, runMove .lutp s = .next t ∧
        w = (if s.refill.k % 32 = 0 then fbLoad s (s.refill.src.toNat + s.refill.k / 32) else s.refill.word) ∧
        t = { s with video := t.video, refill := t.refill } ∧
        t.refill = { s.refill with word := w, k := s.refill.k + 1, active := decide (s.refill.k + 1 ≠ 512) } ∧
        t.video = { s.video with lb0 := t.video.lb0, lb1 := t.video.lb1 } ∧
        ∀ (b : BitVec 1) (a : Nat),
          memRead (lineBuffer t.video b) a =
            if b = s.refill.buf ∧ a = s.refill.k then lut s.tables (w.getLsbD (31 - s.refill.k % 32))
            else memRead (lineBuffer s.video b) a)

/-- R205: the lookup law. A refill run to its end with no other step between leaves in its line buffer, at each k, the
colour of bit 31 - (k mod 32) of word k / 32 of its row; the other buffer is as before. -/
def Obligations.RefillIsTheElementwiseLookup : Prop :=
  ∀ s : State, s.refill.active = true → s.refill.k = 0 →
    ∃ t, t = times lutpStep 512 s ∧ t.refill.active = false ∧
      t = { s with video := t.video, refill := t.refill } ∧
      t.video = { s.video with lb0 := t.video.lb0, lb1 := t.video.lb1 } ∧
      (∀ k, k < 512 →
        memRead (lineBuffer t.video s.refill.buf) k =
          lut s.tables ((fbLoad s (s.refill.src.toNat + k / 32)).getLsbD (31 - k % 32))) ∧
      ∀ (b : BitVec 1) (a : Nat), b ≠ s.refill.buf ∨ 512 ≤ a →
        memRead (lineBuffer t.video b) a = memRead (lineBuffer s.video b) a

/-- R201: a LUTP step depends on the framebuffer only through the sixteen words of its row, and writes none of it. -/
def Obligations.RefillReadsOnlyItsRow : Prop :=
  ∀ (s : State) (m : Memory), s.refill.k < 512 →
    (∀ j, j < 16 → wordRead m (s.refill.src.toNat + j) = wordRead s.fb (s.refill.src.toNat + j)) →
    lutpStep (s.withFb m) = (lutpStep s).withFb m

/-! ### Host interface -/

/-- R43, R304: PAGE stores the byte in PAGESEL by one write, which gives both page indices, and changes nothing else;
MIRROR takes the byte from PAGEQ. -/
def Obligations.PageSwitchStoresTheByte : Prop :=
  (∀ (disp draw : BitVec 2) (ignored : BitVec 4) (s : State),
    ∃ t, exec (.page disp draw ignored) s = .next t ∧ t = { s with pagesel := t.pagesel } ∧
      displayPage t = disp ∧ drawPage t = draw ∧ t.pagesel = (disp ++ draw ++ ignored).setWidth 32) ∧
  ∀ (s : State) (b : Byte) (q : List Byte), s.cmd = none → s.pageq = b :: q →
    runMove .pageSwitch s = .next { s with pageq := q, pagesel := b.setWidth 32 }

/-- R305: outside a command MIRROR copies frame_complete into vblank_observed and STATUS bit 1 when the two differ, and
changes nothing when they do not. -/
def Obligations.MirrorCopiesTheVblankFlag : Prop :=
  ∀ s : State, s.cmd = none →
    (s.video.frameComplete = s.vblankObserved → runMove .mirror s = .next s) ∧
    (s.video.frameComplete ≠ s.vblankObserved →
      runMove .mirror s = .next
        { s with
          vblankObserved := s.video.frameComplete
          gdp := { s.gdp with status := (s.gdp.status &&& ~~~0x02) ||| (if s.video.frameComplete then 0x02 else 0x00) } })

/-- R307: inside a command MIRROR makes no step, neither a page switch nor a status mirror, and no other command starts:
the whole-command move holds, and the access move takes no byte from either queue. -/
def Obligations.NothingOfMirrorFallsInsideACommand : Prop :=
  ∀ (s : State) (j : Job), s.cmd = some j →
    runMove .mirror s = .next s ∧ runMove .pageSwitch s = .next s ∧ runMove .cmdRun s = .next s ∧
      ∃ t, runMove .cmdStep s = .next t ∧ t.cmdq = s.cmdq ∧ t.pageq = s.pageq

/-- R300, R309: what the host's moves do: register writes, clear-set-bits, reads, the two queues, and the routing of a
(register, data) pair by its index. The index of a GDP register, GDP_BASE plus its offset, is the spec's own general
knowledge (R34, log 11). Where indexes coincide the command register wins, then the page register (log 21); a GDP register
is reached at any index (log 26); and an index past the register file holds (log 12): these are the model's choices. -/
def Obligations.HostMovesReachTheBlock : Prop :=
  ∀ (s : State) (r : Reg) (v clear set b : Byte) (n : Nat),
    (∃ t, runMove (.hostSet r v) s = .next t ∧ t = { s with gdp := t.gdp } ∧ t.gdp.get r = v ∧
      ∀ q, q ≠ r → t.gdp.get q = s.gdp.get q) ∧
    (∃ t, runMove (.hostBits r clear set) s = .next t ∧ t = { s with gdp := t.gdp } ∧
      t.gdp.get r = (s.gdp.get r &&& ~~~clear) ||| set ∧ ∀ q, q ≠ r → t.gdp.get q = s.gdp.get q) ∧
    runMove (.hostGet r) s = .next s ∧
    runMove (.hostCmd b) s = .next { s with cmdq := s.cmdq ++ [b] } ∧
    runMove (.hostPage b) s = .next { s with pageq := s.pageq ++ [b] } ∧
    (n = s.par.gdpBase → runMove (.hostEntry n b) s = .next { s with cmdq := s.cmdq ++ [b] }) ∧
    (n ≠ s.par.gdpBase → n = s.par.pageReg → runMove (.hostEntry n b) s = .next { s with pageq := s.pageq ++ [b] }) ∧
    (n ≠ s.par.gdpBase → n ≠ s.par.pageReg → n = s.par.gdpBase + r.offset →
      runMove (.hostEntry n b) s = runMove (.hostSet r b) s) ∧
    (n ≠ s.par.pageReg → s.par.regfileSize ≤ n → (∀ q : Reg, n ≠ s.par.gdpBase + q.offset) →
      runMove (.hostEntry n b) s = .next s) ∧
    (n ≠ s.par.pageReg → n < s.par.regfileSize → (∀ q : Reg, n ≠ s.par.gdpBase + q.offset) →
      ∃ t, runMove (.hostEntry n b) s = .next t ∧ t = { s with otherRegs := t.otherRegs } ∧
        ∀ k, memRead t.otherRegs k = if k = n then b else memRead s.otherRegs k)

/-- R127: moveto and delta write their registers and nothing else; draw_mode and erase_mode, run from an idle machine with
an empty queue, leave CTRL1 in the mode of their name. That the bytes 0x00, 0x01 and 0x02 they enqueue are PEN, ERASER and
PENDOWN is the spec's own general knowledge (R112, D22, log 15). -/
def Obligations.HostScriptsSetTheirRegisters : Prop :=
  ∀ (s : State) (x y : BitVec 16) (dx dy : Byte),
    (∃ t, runMoves (scriptMoveto x y) s = .next t ∧ t = { s with gdp := t.gdp } ∧ cursorX t.gdp = x ∧ cursorY t.gdp = y ∧
      ∀ r, r ∉ cursorRegs → t.gdp.get r = s.gdp.get r) ∧
    runMoves (scriptDelta dx dy) s = .next (s.withGdp { s.gdp with deltax := dx, deltay := dy }) ∧
    (s.cmd = none → s.cmdq = [] →
      (∃ t, runMoves (scriptDrawMode ++ [.cmdRun, .cmdRun]) s = .next t ∧ modeOf t.gdp.ctrl1 = .draw ∧ t.cmdq = [] ∧
        t.fb = s.fb) ∧
      ∃ t, runMoves (scriptEraseMode ++ [.cmdRun, .cmdRun]) s = .next t ∧ modeOf t.gdp.ctrl1 = .erase ∧ t.cmdq = [] ∧
        t.fb = s.fb)

/-- R127: lineto_rel, run from an idle machine with an empty queue, moves the cursor by its two deltas modulo 2^16. -/
def Obligations.LinetoMovesByItsDeltas : Prop :=
  ∀ (s : State) (dx dy : Int), s.cmd = none → s.cmdq = [] → -255 ≤ dx → dx ≤ 255 → -255 ≤ dy → dy ≤ 255 →
    ∃ t, runMoves (scriptLineto dx dy ++ [.cmdRun]) s = .next t ∧ t.cmdq = [] ∧
      cursorX t.gdp = BitVec.ofInt 16 (((cursorX s.gdp).toNat : Int) + dx) ∧
      cursorY t.gdp = BitVec.ofInt 16 (((cursorY s.gdp).toNat : Int) + dy)

/-- R162: after the boot a request to change the format, or to write SEQ, is refused. That both requests are the one move
hostFormat is the model's choice (log 22). -/
def Obligations.FormatChangeIsRefused : Prop :=
  ∀ (s : State) (f : ScanFormat) (ms : List Move), s.booted = true → s.sched = .hostFormat f :: ms →
    step s = .refused .formatChangeWhilePlaying

/-! ### The step -/

/-- A step runs the decoded instruction: the next command byte, TG's next descriptor, the next page byte; around exec the
byte leaves its queue and the move leaves the schedule (R159, R301, R304). The schedule as a list of moves, with a free
move counted by tick when the list is empty, is the model's choice for R18 (log 1), and so is that exec starts from the
state with the byte already taken (log 20). -/
def Obligations.StepRunsTheDecodedInstruction : Prop :=
  ∀ (s : State) (ms : List Move), s.booted = true →
    (∀ b q, s.sched = .cmdRun :: ms → s.cmd = none → s.cmdq = b :: q →
      step s = exec (decodeCommand b) { s with sched := ms, cmdq := q }) ∧
    (∀ w i, s.sched = .tg :: ms → s.tg.word = some w →
      decodeDescriptor (if s.tg.half = 0#1 then w.extractLsb' 0 16 else w.extractLsb' 16 16) = .ok i →
      step s = exec i { s with sched := ms }) ∧
    (∀ b q, s.sched = .pageSwitch :: ms → s.cmd = none → s.pageq = b :: q →
      step s = exec (decodePage b) { s with sched := ms, pageq := q }) ∧
    (s.sched = [] → step s = runMove (Config.freeMove s.tick) { s with tick := s.tick + 1 })

/-- The very next step after a table word is placed runs the instruction the decoder reads from it: a byte in the state with
the boot run and CMD idle, a descriptor in the state with the boot run and it the first half of TG's word; nothing else
differs. withFetchWord, and the boot it stands for, are the model's (log 3), and so is reading a byte as a command (log 13). -/
def Obligations.PlacedWordRunsNext : Prop :=
  ∀ (s : State) (nbits w : Nat) (i : Instr), decodeTableWord nbits w = some i →
    (nbits = 8 ∧ step (s.withFetchWord nbits w) = exec i { s with booted := true, cmd := none }) ∨
      (nbits = 16 ∧ step (s.withFetchWord nbits w) =
        exec i { s with booted := true, tg := { s.tg with word := some (0#16 ++ BitVec.ofNat 16 w), half := 0 } })

/-- R16, R235, R301: a command run access by access, with no other agent's step between, ends after some number of
accesses, each leaving it in progress until the last, in the very state exec answers. The grain, one access a move, an inert
plot's four accesses, and taking the byte as a move of its own, is the model's choice (log 9). -/
def Obligations.AccessByAccessIsTheWholeCommand : Prop :=
  ∀ (s : State) (b : Byte) (q : List Byte), s.cmd = none → s.cmdq = b :: q →
    ∃ n, 0 < n ∧ exec (decodeCommand b) { s with cmdq := q } = .next (times cmdStep n s) ∧
      ∀ k, 0 < k → k < n → (times cmdStep k s).cmd ≠ none

/-! ### Frames and isolation -/

/-- R180: every command byte's instruction answers a next state that differs at most in the GDP registers and in bytes of
the draw page; DELTAX and DELTAY keep their values. -/
def Obligations.CommandsChangeOnlyRegistersAndDrawPage : Prop :=
  ∀ (i : Instr) (s : State), isCommand i = true →
    ∃ t, exec i s = .next t ∧ t = { s with gdp := t.gdp, fb := t.fb } ∧
      t.gdp.deltax = s.gdp.deltax ∧ t.gdp.deltay = s.gdp.deltay ∧
      ∀ a, ¬ inPage (drawPage s) a → memRead t.fb a = memRead s.fb a

/-- R180, R294: access by access too, a CMD step changes no byte outside draw_page. -/
def Obligations.CommandStepsStayInTheDrawPage : Prop :=
  ∀ (m : Move) (s t : State), Inv s → commandMove m = true → runMove m s = .next t →
    ∀ a, ¬ inPage (drawPage s) a → memRead t.fb a = memRead s.fb a

/-- R44: no agent but CMD writes the framebuffer. -/
def Obligations.OnlyCommandsWriteTheFramebuffer : Prop :=
  ∀ (m : Move) (s t : State), commandMove m = false → runMove m s = .next t → t.fb = s.fb

/-- The handlers (R98, R326), SYNC (R155), TG (R157, R159, R160) and LUTP (R209) touch no register-file byte, and neither
queue, page word, command nor framebuffer; the spaces are separate (R80). -/
def Obligations.VideoAgentsTouchNoRegister : Prop :=
  ∀ (m : Move) (s t : State), videoMove m = true → runMove m s = .next t →
    t.gdp = s.gdp ∧ t.otherRegs = s.otherRegs ∧ t.pagesel = s.pagesel ∧ t.vblankObserved = s.vblankObserved ∧
      t.cmdq = s.cmdq ∧ t.pageq = s.pageq ∧ t.cmd = s.cmd ∧ t.fb = s.fb

/-- R60, R100: no step changes the parameters, and after the boot none changes the sequence or the tables. -/
def Obligations.ProgramAndParametersNeverChange : Prop :=
  ∀ s t : State, step s = .next t →
    t.par = s.par ∧ t.booted = true ∧
      (s.booted = true → t.sync.seq = s.sync.seq ∧ t.sync.seqLen = s.sync.seqLen ∧ t.tables = s.tables)

/-- R323: with both handlers pending, SYNC_IRQ then DATA leaves LineCounter 1 and frame_complete 0; DATA then SYNC_IRQ leaves
0 and 1 (vector V99). -/
def Obligations.HandlerOrderShows : Prop :=
  ∀ s : State, s.sync.irqPending = true → 0 < s.video.lineActivePending → s.refill.active = false →
    ((dataStep (syncIrqStep s)).video.lineCounter = 1 ∧ (dataStep (syncIrqStep s)).video.frameComplete = false) ∧
    ((syncIrqStep (dataStep s)).video.lineCounter = 0 ∧ (syncIrqStep (dataStep s)).video.frameComplete = true)

/-! ### Invariants -/

/-- The invariant holds right after reset. -/
def Obligations.ResetMeetsTheInvariants : Prop :=
  Inv State.reset ∧ PlaybackInv State.reset ∧ LineInv State.reset

/-- Every step keeps the invariant: memories canonical, the sequencer's indices and flags in step and its words without
reserved bits, and the command in progress on the draw page (R31, R46, R47, R122, R294). -/
def Obligations.EveryStepKeepsTheInvariant : Prop :=
  ∀ s t : State, Inv s → step s = .next t → Inv t

/-- R163: every step keeps cyclic playback: the descriptors TG executes are those of SEQ in order, pass after pass, without
loss or repetition, with one FrameSync per pass. -/
def Obligations.PlaybackIsCyclic : Prop :=
  ∀ s t : State, SequencerInv s → PlaybackInv s → step s = .next t → PlaybackInv t

/-- R173, R176, R325: every step keeps the tally of lines: no line-active event is lost, frame_complete is 1 exactly from a
FrameSync to the next served line, LineCounter counts the lines since the last FrameSync modulo 1024. -/
def Obligations.LinesAreCountedAndNoneIsLost : Prop :=
  ∀ s t : State, LineInv s → step s = .next t → LineInv t

/-- R320, R321: in a state that meets the invariant every move of the block's own agents answers a next state: nothing in
the block faults and no command is illegal. -/
def Obligations.NothingInTheBlockStops : Prop :=
  ∀ (m : Move) (s : State), Inv s → s.booted = true → blockMove m = true → ∃ t, runMove m s = .next t

/-- R320, R321: no step faults, and the only refusals are those of R152, R162 and R122: the boot's of an ill-formed
format, that of a HOST format change, and TG's of a reserved descriptor, which is the model's (log 14). -/
def Obligations.OnlyTheNamedRefusalsStopAStep : Prop :=
  ∀ s : State,
    (∀ f, step s ≠ .fault f) ∧
    ∀ r, step s = .refused r →
      (s.booted = false ∧ ∃ e, r = .illFormedScanFormat e) ∨
      (s.booted = true ∧ r = .formatChangeWhilePlaying ∧ ∃ f, (takeMove s).1 = .hostFormat f) ∨
      (s.booted = true ∧ r = .reservedDescriptor ∧ (takeMove s).1 = .tg ∧
        ∃ w, s.tg.word = some w ∧ wordWf w = false)
end

