-- ==== Sys2Proof/Laws/Memory.lean ====
section
/-! SUPPORT. Laws of the byte memory and of its words: a read after a write, the canonical form kept, and equal memories
from equal reads. -/

namespace Sys2Proof.Machine

theorem memRead_memErase (m : Memory) (a b : Nat) : memRead (memErase m a) b = if b = a then 0 else memRead m b := by
  induction m with
  | nil => simp [memErase, memRead]
  | cons c m ih =>
    obtain ⟨d, w⟩ := c
    by_cases hd : d = a
    · simp only [memErase, hd, if_true, ih, memRead]
      split <;> simp_all [eq_comm]
    · simp only [memErase, hd, if_false, memRead, ih]
      split <;> split <;> simp_all

theorem memRead_memInsert (m : Memory) (a b : Nat) (v : Byte) (hm : ∀ c ∈ m, c.1 ≠ a) :
    memRead (memInsert m a v) b = if b = a then v else memRead m b := by
  induction m with
  | nil => simp [memInsert, memRead, eq_comm]
  | cons c m ih =>
    obtain ⟨d, w⟩ := c
    have hda : d ≠ a := hm (d, w) (by simp)
    have hm' : ∀ c ∈ m, c.1 ≠ a := fun c hc => hm c (by simp [hc])
    simp only [memInsert]
    split
    · simp only [memRead, eq_comm]
    · simp only [memRead, ih hm']
      split <;> split <;> simp_all

theorem memErase_ne (m : Memory) (a : Nat) : ∀ c ∈ memErase m a, c.1 ≠ a := by
  induction m with
  | nil => simp [memErase]
  | cons c m ih =>
    obtain ⟨d, w⟩ := c
    simp only [memErase]
    split
    · exact ih
    · intro c hc
      rcases List.mem_cons.mp hc with rfl | hc
      · assumption
      · exact ih c hc

/-- A read after a write: the byte written there, every other byte as before. -/
@[simp] theorem memRead_memWrite (m : Memory) (a b : Nat) (v : Byte) :
    memRead (memWrite m a v) b = if b = a then v else memRead m b := by
  unfold memWrite
  split
  · subst v; exact memRead_memErase m a b
  · rw [memRead_memInsert _ _ _ _ (memErase_ne m a), memRead_memErase]
    split <;> simp_all

/-! ### The canonical form -/

theorem memWfFrom_mono {size lo lo' : Nat} {m : Memory} (h : memWfFrom size lo m = true) (hl : lo' ≤ lo) :
    memWfFrom size lo' m = true := by
  cases m with
  | nil => rfl
  | cons c m =>
    simp only [memWfFrom, Bool.and_eq_true, decide_eq_true_eq] at h ⊢
    exact ⟨⟨⟨by omega, h.1.1.2⟩, h.1.2⟩, h.2⟩

theorem memErase_wfFrom {size : Nat} {m : Memory} (a : Nat) :
    ∀ {lo : Nat}, memWfFrom size lo m = true → memWfFrom size lo (memErase m a) = true := by
  induction m with
  | nil => intro lo h; rfl
  | cons c m ih =>
    obtain ⟨b, w⟩ := c
    intro lo h
    simp only [memWfFrom, Bool.and_eq_true, decide_eq_true_eq] at h
    simp only [memErase]
    split
    · exact ih (memWfFrom_mono h.2 (by omega))
    · simp only [memWfFrom, Bool.and_eq_true, decide_eq_true_eq]
      exact ⟨h.1, ih h.2⟩

theorem memInsert_wfFrom {size : Nat} {m : Memory} {a : Nat} {v : Byte} (ha : a < size) (hv : v ≠ 0) :
    ∀ {lo : Nat}, lo ≤ a → memWfFrom size lo m = true → (∀ c ∈ m, c.1 ≠ a) → memWfFrom size lo (memInsert m a v) = true := by
  induction m with
  | nil => intro lo hl _ _; simp [memInsert, memWfFrom, hl, ha]; simpa using hv
  | cons c m ih =>
    obtain ⟨b, w⟩ := c
    intro lo hl h hne
    have hb : b ≠ a := hne (b, w) (by simp)
    simp only [memWfFrom, Bool.and_eq_true, decide_eq_true_eq] at h
    simp only [memInsert]
    split <;> simp only [memWfFrom, Bool.and_eq_true, decide_eq_true_eq]
    · exact ⟨⟨⟨hl, ha⟩, hv⟩, ⟨⟨by omega, h.1.1.2⟩, h.1.2⟩, h.2⟩
    · exact ⟨h.1, ih (by omega) h.2 fun c hc => hne c (by simp [hc])⟩

/-- A write inside the space keeps the canonical form. -/
theorem memWrite_wf {size : Nat} {m : Memory} {a : Nat} (v : Byte) (ha : a < size) (h : Memory.wf size m = true) :
    Memory.wf size (memWrite m a v) = true := by
  unfold Memory.wf at *
  unfold memWrite
  split
  · exact memErase_wfFrom a h
  · exact memInsert_wfFrom ha ‹_› (Nat.zero_le a) (memErase_wfFrom a h) (memErase_ne m a)

/-- Loading bytes inside the space keeps the canonical form. -/
theorem memLoad_wf {size : Nat} {vs : List Byte} :
    ∀ {m : Memory} {a : Nat}, a + vs.length ≤ size → Memory.wf size m = true → Memory.wf size (memLoad m a vs) = true := by
  induction vs with
  | nil => intro m a _ h; exact h
  | cons v vs ih =>
    intro m a hl h
    simp only [List.length_cons] at hl
    exact ih (by omega) (memWrite_wf v (by omega) h)

/-- A load: the bytes loaded in their places, every other byte as before. -/
theorem memRead_memLoad {vs : List Byte} :
    ∀ {m : Memory} {a b : Nat}, memRead (memLoad m a vs) b = if a ≤ b ∧ b < a + vs.length then vs.getD (b - a) 0 else memRead m b := by
  induction vs with
  | nil => intro m a b; simp [memLoad]
  | cons v vs ih =>
    intro m a b
    simp only [memLoad, ih, memRead_memWrite, List.length_cons]
    by_cases hb : b = a
    · subst hb; simp
    · by_cases h : a + 1 ≤ b ∧ b < a + 1 + vs.length
      · have : b - a = (b - (a + 1)) + 1 := by omega
        rw [if_pos h, if_pos (by omega), this]; simp
      · rw [if_neg h, if_neg hb, if_neg (by omega)]

theorem memRead_of_lt {size : Nat} {m : Memory} :
    ∀ {lo a : Nat}, memWfFrom size lo m = true → a < lo → memRead m a = 0 := by
  induction m with
  | nil => intro lo a _ _; rfl
  | cons c m ih =>
    obtain ⟨b, w⟩ := c
    intro lo a h hl
    simp only [memWfFrom, Bool.and_eq_true, decide_eq_true_eq] at h
    have : b ≠ a := by omega
    simp only [memRead, this, if_false]
    exact ih h.2 (by omega)

/-- Two memories in canonical form with equal reads are equal. -/
theorem memory_ext_from {size : Nat} {m : Memory} :
    ∀ {n : Memory} {lo : Nat}, memWfFrom size lo m = true → memWfFrom size lo n = true → (∀ a, memRead m a = memRead n a) → m = n := by
  induction m with
  | nil =>
    intro n lo _ hn h
    cases n with
    | nil => rfl
    | cons d n =>
      obtain ⟨b, w⟩ := d
      simp only [memWfFrom, Bool.and_eq_true, decide_eq_true_eq] at hn
      exact absurd (by simpa [memRead] using (h b).symm) hn.1.2
  | cons c m ih =>
    obtain ⟨a, v⟩ := c
    intro n lo hm hn h
    simp only [memWfFrom, Bool.and_eq_true, decide_eq_true_eq] at hm
    cases n with
    | nil => exact absurd (by simpa [memRead] using h a) hm.1.2
    | cons d n =>
      obtain ⟨b, w⟩ := d
      simp only [memWfFrom, Bool.and_eq_true, decide_eq_true_eq] at hn
      have hab : a = b := by
        rcases lt_trichotomy a b with hlt | heq | hgt
        · have := h a
          simp only [memRead, if_true, if_neg (show ¬ b = a by omega), memRead_of_lt hn.2 (show a < b + 1 by omega)] at this
          exact absurd this hm.1.2
        · exact heq
        · have := (h b).symm
          simp only [memRead, if_true, if_neg (show ¬ a = b by omega), memRead_of_lt hm.2 (show b < a + 1 by omega)] at this
          exact absurd this hn.1.2
      subst hab
      have hvw : v = w := by simpa [memRead] using h a
      subst hvw
      rw [ih hm.2 hn.2]
      intro x
      by_cases hx : a = x
      · subst hx; rw [memRead_of_lt hm.2 (by omega), memRead_of_lt hn.2 (by omega)]
      · simpa [memRead, hx] using h x

theorem memory_ext {size : Nat} {m n : Memory} (hm : Memory.wf size m = true) (hn : Memory.wf size n = true)
    (h : ∀ a, memRead m a = memRead n a) : m = n :=
  memory_ext_from hm hn h

/-! ### Words -/

/-- A byte read after a word write: the word's bytes, little-endian, every other byte as before. -/
theorem memRead_wordWrite (m : Memory) (w : Nat) (v : Word) (a : Nat) :
    memRead (wordWrite m w v) a = if a / 4 = w then v.extractLsb' (8 * (a % 4)) 8 else memRead m a := by
  simp only [wordWrite, memRead_memWrite]
  by_cases h : a / 4 = w
  · have h4 : a % 4 = 0 ∨ a % 4 = 1 ∨ a % 4 = 2 ∨ a % 4 = 3 := by omega
    rcases h4 with h4 | h4 | h4 | h4 <;>
      · have : a = 4 * w + a % 4 := by omega
        rw [h4] at this
        subst this
        simp [h4, h]
  · rw [if_neg (by omega), if_neg (by omega), if_neg (by omega), if_neg (by omega), if_neg h]

/-- A word read after a word write: the word written there, every other word as before. -/
@[simp] theorem wordRead_wordWrite (m : Memory) (w x : Nat) (v : Word) :
    wordRead (wordWrite m w v) x = if x = w then v else wordRead m x := by
  simp only [wordRead, memRead_wordWrite]
  by_cases h : x = w
  · subst h
    rw [if_pos (by omega), if_pos (by omega), if_pos (by omega), if_pos (by omega), if_pos rfl,
      show (4 * x + 3) % 4 = 3 by omega, show (4 * x + 2) % 4 = 2 by omega, show (4 * x + 1) % 4 = 1 by omega,
      show 4 * x % 4 = 0 by omega]
    apply BitVec.eq_of_getLsbD_eq
    intro i hi
    simp only [BitVec.getLsbD_append, BitVec.getLsbD_extractLsb']
    by_cases h1 : i < 8
    · simp [h1]
    · by_cases h2 : i < 16
      · simp [h1, show i - 8 < 8 by omega, show 8 + (i - 8) = i by omega]
      · by_cases h3 : i < 24
        · simp [h1, show ¬ i - 8 < 8 by omega, show i - 8 - 8 < 8 by omega, show 16 + (i - 8 - 8) = i by omega]
        · simp [h1, show ¬ i - 8 < 8 by omega, show ¬ i - 8 - 8 < 8 by omega, show i - 8 - 8 - 8 < 8 by omega,
            show 24 + (i - 8 - 8 - 8) = i by omega]
  · rw [if_neg (by omega), if_neg (by omega), if_neg (by omega), if_neg (by omega), if_neg h]

/-- A word write inside the space keeps the canonical form. -/
theorem wordWrite_wf {size : Nat} {m : Memory} {w : Nat} (v : Word) (hw : 4 * w + 4 ≤ size) (h : Memory.wf size m = true) :
    Memory.wf size (wordWrite m w v) = true :=
  memWrite_wf _ (by omega) (memWrite_wf _ (by omega) (memWrite_wf _ (by omega) (memWrite_wf _ (by omega) h)))

end Sys2Proof.Machine
end

