-- ==== Sys2Proof/Laws/State.lean ====
section
/-! SUPPORT. One lemma per field of State per named update of Machine/Ops.lean, true by unfolding. -/

namespace Sys2Proof.Machine

variable (s : State)

/-! ### State.withGdp -/

@[simp] theorem State.withGdp_par (v : Gdp) : (s.withGdp v).par = s.par := rfl
@[simp] theorem State.withGdp_booted (v : Gdp) : (s.withGdp v).booted = s.booted := rfl
@[simp] theorem State.withGdp_gdp (v : Gdp) : (s.withGdp v).gdp = v := rfl
@[simp] theorem State.withGdp_otherRegs (v : Gdp) : (s.withGdp v).otherRegs = s.otherRegs := rfl
@[simp] theorem State.withGdp_pagesel (v : Gdp) : (s.withGdp v).pagesel = s.pagesel := rfl
@[simp] theorem State.withGdp_vblankObserved (v : Gdp) : (s.withGdp v).vblankObserved = s.vblankObserved := rfl
@[simp] theorem State.withGdp_fb (v : Gdp) : (s.withGdp v).fb = s.fb := rfl
@[simp] theorem State.withGdp_sync (v : Gdp) : (s.withGdp v).sync = s.sync := rfl
@[simp] theorem State.withGdp_tg (v : Gdp) : (s.withGdp v).tg = s.tg := rfl
@[simp] theorem State.withGdp_video (v : Gdp) : (s.withGdp v).video = s.video := rfl
@[simp] theorem State.withGdp_refill (v : Gdp) : (s.withGdp v).refill = s.refill := rfl
@[simp] theorem State.withGdp_tables (v : Gdp) : (s.withGdp v).tables = s.tables := rfl
@[simp] theorem State.withGdp_cmdq (v : Gdp) : (s.withGdp v).cmdq = s.cmdq := rfl
@[simp] theorem State.withGdp_pageq (v : Gdp) : (s.withGdp v).pageq = s.pageq := rfl
@[simp] theorem State.withGdp_cmd (v : Gdp) : (s.withGdp v).cmd = s.cmd := rfl
@[simp] theorem State.withGdp_history (v : Gdp) : (s.withGdp v).history = s.history := rfl
@[simp] theorem State.withGdp_sched (v : Gdp) : (s.withGdp v).sched = s.sched := rfl
@[simp] theorem State.withGdp_tick (v : Gdp) : (s.withGdp v).tick = s.tick := rfl

/-! ### State.withOtherRegs -/

@[simp] theorem State.withOtherRegs_par (v : Memory) : (s.withOtherRegs v).par = s.par := rfl
@[simp] theorem State.withOtherRegs_booted (v : Memory) : (s.withOtherRegs v).booted = s.booted := rfl
@[simp] theorem State.withOtherRegs_gdp (v : Memory) : (s.withOtherRegs v).gdp = s.gdp := rfl
@[simp] theorem State.withOtherRegs_otherRegs (v : Memory) : (s.withOtherRegs v).otherRegs = v := rfl
@[simp] theorem State.withOtherRegs_pagesel (v : Memory) : (s.withOtherRegs v).pagesel = s.pagesel := rfl
@[simp] theorem State.withOtherRegs_vblankObserved (v : Memory) : (s.withOtherRegs v).vblankObserved = s.vblankObserved := rfl
@[simp] theorem State.withOtherRegs_fb (v : Memory) : (s.withOtherRegs v).fb = s.fb := rfl
@[simp] theorem State.withOtherRegs_sync (v : Memory) : (s.withOtherRegs v).sync = s.sync := rfl
@[simp] theorem State.withOtherRegs_tg (v : Memory) : (s.withOtherRegs v).tg = s.tg := rfl
@[simp] theorem State.withOtherRegs_video (v : Memory) : (s.withOtherRegs v).video = s.video := rfl
@[simp] theorem State.withOtherRegs_refill (v : Memory) : (s.withOtherRegs v).refill = s.refill := rfl
@[simp] theorem State.withOtherRegs_tables (v : Memory) : (s.withOtherRegs v).tables = s.tables := rfl
@[simp] theorem State.withOtherRegs_cmdq (v : Memory) : (s.withOtherRegs v).cmdq = s.cmdq := rfl
@[simp] theorem State.withOtherRegs_pageq (v : Memory) : (s.withOtherRegs v).pageq = s.pageq := rfl
@[simp] theorem State.withOtherRegs_cmd (v : Memory) : (s.withOtherRegs v).cmd = s.cmd := rfl
@[simp] theorem State.withOtherRegs_history (v : Memory) : (s.withOtherRegs v).history = s.history := rfl
@[simp] theorem State.withOtherRegs_sched (v : Memory) : (s.withOtherRegs v).sched = s.sched := rfl
@[simp] theorem State.withOtherRegs_tick (v : Memory) : (s.withOtherRegs v).tick = s.tick := rfl

/-! ### State.withPagesel -/

@[simp] theorem State.withPagesel_par (v : Word) : (s.withPagesel v).par = s.par := rfl
@[simp] theorem State.withPagesel_booted (v : Word) : (s.withPagesel v).booted = s.booted := rfl
@[simp] theorem State.withPagesel_gdp (v : Word) : (s.withPagesel v).gdp = s.gdp := rfl
@[simp] theorem State.withPagesel_otherRegs (v : Word) : (s.withPagesel v).otherRegs = s.otherRegs := rfl
@[simp] theorem State.withPagesel_pagesel (v : Word) : (s.withPagesel v).pagesel = v := rfl
@[simp] theorem State.withPagesel_vblankObserved (v : Word) : (s.withPagesel v).vblankObserved = s.vblankObserved := rfl
@[simp] theorem State.withPagesel_fb (v : Word) : (s.withPagesel v).fb = s.fb := rfl
@[simp] theorem State.withPagesel_sync (v : Word) : (s.withPagesel v).sync = s.sync := rfl
@[simp] theorem State.withPagesel_tg (v : Word) : (s.withPagesel v).tg = s.tg := rfl
@[simp] theorem State.withPagesel_video (v : Word) : (s.withPagesel v).video = s.video := rfl
@[simp] theorem State.withPagesel_refill (v : Word) : (s.withPagesel v).refill = s.refill := rfl
@[simp] theorem State.withPagesel_tables (v : Word) : (s.withPagesel v).tables = s.tables := rfl
@[simp] theorem State.withPagesel_cmdq (v : Word) : (s.withPagesel v).cmdq = s.cmdq := rfl
@[simp] theorem State.withPagesel_pageq (v : Word) : (s.withPagesel v).pageq = s.pageq := rfl
@[simp] theorem State.withPagesel_cmd (v : Word) : (s.withPagesel v).cmd = s.cmd := rfl
@[simp] theorem State.withPagesel_history (v : Word) : (s.withPagesel v).history = s.history := rfl
@[simp] theorem State.withPagesel_sched (v : Word) : (s.withPagesel v).sched = s.sched := rfl
@[simp] theorem State.withPagesel_tick (v : Word) : (s.withPagesel v).tick = s.tick := rfl

/-! ### State.withVblankObserved -/

@[simp] theorem State.withVblankObserved_par (v : Bool) : (s.withVblankObserved v).par = s.par := rfl
@[simp] theorem State.withVblankObserved_booted (v : Bool) : (s.withVblankObserved v).booted = s.booted := rfl
@[simp] theorem State.withVblankObserved_gdp (v : Bool) : (s.withVblankObserved v).gdp = s.gdp := rfl
@[simp] theorem State.withVblankObserved_otherRegs (v : Bool) : (s.withVblankObserved v).otherRegs = s.otherRegs := rfl
@[simp] theorem State.withVblankObserved_pagesel (v : Bool) : (s.withVblankObserved v).pagesel = s.pagesel := rfl
@[simp] theorem State.withVblankObserved_vblankObserved (v : Bool) : (s.withVblankObserved v).vblankObserved = v := rfl
@[simp] theorem State.withVblankObserved_fb (v : Bool) : (s.withVblankObserved v).fb = s.fb := rfl
@[simp] theorem State.withVblankObserved_sync (v : Bool) : (s.withVblankObserved v).sync = s.sync := rfl
@[simp] theorem State.withVblankObserved_tg (v : Bool) : (s.withVblankObserved v).tg = s.tg := rfl
@[simp] theorem State.withVblankObserved_video (v : Bool) : (s.withVblankObserved v).video = s.video := rfl
@[simp] theorem State.withVblankObserved_refill (v : Bool) : (s.withVblankObserved v).refill = s.refill := rfl
@[simp] theorem State.withVblankObserved_tables (v : Bool) : (s.withVblankObserved v).tables = s.tables := rfl
@[simp] theorem State.withVblankObserved_cmdq (v : Bool) : (s.withVblankObserved v).cmdq = s.cmdq := rfl
@[simp] theorem State.withVblankObserved_pageq (v : Bool) : (s.withVblankObserved v).pageq = s.pageq := rfl
@[simp] theorem State.withVblankObserved_cmd (v : Bool) : (s.withVblankObserved v).cmd = s.cmd := rfl
@[simp] theorem State.withVblankObserved_history (v : Bool) : (s.withVblankObserved v).history = s.history := rfl
@[simp] theorem State.withVblankObserved_sched (v : Bool) : (s.withVblankObserved v).sched = s.sched := rfl
@[simp] theorem State.withVblankObserved_tick (v : Bool) : (s.withVblankObserved v).tick = s.tick := rfl

/-! ### State.withFb -/

@[simp] theorem State.withFb_par (v : Memory) : (s.withFb v).par = s.par := rfl
@[simp] theorem State.withFb_booted (v : Memory) : (s.withFb v).booted = s.booted := rfl
@[simp] theorem State.withFb_gdp (v : Memory) : (s.withFb v).gdp = s.gdp := rfl
@[simp] theorem State.withFb_otherRegs (v : Memory) : (s.withFb v).otherRegs = s.otherRegs := rfl
@[simp] theorem State.withFb_pagesel (v : Memory) : (s.withFb v).pagesel = s.pagesel := rfl
@[simp] theorem State.withFb_vblankObserved (v : Memory) : (s.withFb v).vblankObserved = s.vblankObserved := rfl
@[simp] theorem State.withFb_fb (v : Memory) : (s.withFb v).fb = v := rfl
@[simp] theorem State.withFb_sync (v : Memory) : (s.withFb v).sync = s.sync := rfl
@[simp] theorem State.withFb_tg (v : Memory) : (s.withFb v).tg = s.tg := rfl
@[simp] theorem State.withFb_video (v : Memory) : (s.withFb v).video = s.video := rfl
@[simp] theorem State.withFb_refill (v : Memory) : (s.withFb v).refill = s.refill := rfl
@[simp] theorem State.withFb_tables (v : Memory) : (s.withFb v).tables = s.tables := rfl
@[simp] theorem State.withFb_cmdq (v : Memory) : (s.withFb v).cmdq = s.cmdq := rfl
@[simp] theorem State.withFb_pageq (v : Memory) : (s.withFb v).pageq = s.pageq := rfl
@[simp] theorem State.withFb_cmd (v : Memory) : (s.withFb v).cmd = s.cmd := rfl
@[simp] theorem State.withFb_history (v : Memory) : (s.withFb v).history = s.history := rfl
@[simp] theorem State.withFb_sched (v : Memory) : (s.withFb v).sched = s.sched := rfl
@[simp] theorem State.withFb_tick (v : Memory) : (s.withFb v).tick = s.tick := rfl

/-! ### State.withSync -/

@[simp] theorem State.withSync_par (v : Sync) : (s.withSync v).par = s.par := rfl
@[simp] theorem State.withSync_booted (v : Sync) : (s.withSync v).booted = s.booted := rfl
@[simp] theorem State.withSync_gdp (v : Sync) : (s.withSync v).gdp = s.gdp := rfl
@[simp] theorem State.withSync_otherRegs (v : Sync) : (s.withSync v).otherRegs = s.otherRegs := rfl
@[simp] theorem State.withSync_pagesel (v : Sync) : (s.withSync v).pagesel = s.pagesel := rfl
@[simp] theorem State.withSync_vblankObserved (v : Sync) : (s.withSync v).vblankObserved = s.vblankObserved := rfl
@[simp] theorem State.withSync_fb (v : Sync) : (s.withSync v).fb = s.fb := rfl
@[simp] theorem State.withSync_sync (v : Sync) : (s.withSync v).sync = v := rfl
@[simp] theorem State.withSync_tg (v : Sync) : (s.withSync v).tg = s.tg := rfl
@[simp] theorem State.withSync_video (v : Sync) : (s.withSync v).video = s.video := rfl
@[simp] theorem State.withSync_refill (v : Sync) : (s.withSync v).refill = s.refill := rfl
@[simp] theorem State.withSync_tables (v : Sync) : (s.withSync v).tables = s.tables := rfl
@[simp] theorem State.withSync_cmdq (v : Sync) : (s.withSync v).cmdq = s.cmdq := rfl
@[simp] theorem State.withSync_pageq (v : Sync) : (s.withSync v).pageq = s.pageq := rfl
@[simp] theorem State.withSync_cmd (v : Sync) : (s.withSync v).cmd = s.cmd := rfl
@[simp] theorem State.withSync_history (v : Sync) : (s.withSync v).history = s.history := rfl
@[simp] theorem State.withSync_sched (v : Sync) : (s.withSync v).sched = s.sched := rfl
@[simp] theorem State.withSync_tick (v : Sync) : (s.withSync v).tick = s.tick := rfl

/-! ### State.withTg -/

@[simp] theorem State.withTg_par (v : Timing) : (s.withTg v).par = s.par := rfl
@[simp] theorem State.withTg_booted (v : Timing) : (s.withTg v).booted = s.booted := rfl
@[simp] theorem State.withTg_gdp (v : Timing) : (s.withTg v).gdp = s.gdp := rfl
@[simp] theorem State.withTg_otherRegs (v : Timing) : (s.withTg v).otherRegs = s.otherRegs := rfl
@[simp] theorem State.withTg_pagesel (v : Timing) : (s.withTg v).pagesel = s.pagesel := rfl
@[simp] theorem State.withTg_vblankObserved (v : Timing) : (s.withTg v).vblankObserved = s.vblankObserved := rfl
@[simp] theorem State.withTg_fb (v : Timing) : (s.withTg v).fb = s.fb := rfl
@[simp] theorem State.withTg_sync (v : Timing) : (s.withTg v).sync = s.sync := rfl
@[simp] theorem State.withTg_tg (v : Timing) : (s.withTg v).tg = v := rfl
@[simp] theorem State.withTg_video (v : Timing) : (s.withTg v).video = s.video := rfl
@[simp] theorem State.withTg_refill (v : Timing) : (s.withTg v).refill = s.refill := rfl
@[simp] theorem State.withTg_tables (v : Timing) : (s.withTg v).tables = s.tables := rfl
@[simp] theorem State.withTg_cmdq (v : Timing) : (s.withTg v).cmdq = s.cmdq := rfl
@[simp] theorem State.withTg_pageq (v : Timing) : (s.withTg v).pageq = s.pageq := rfl
@[simp] theorem State.withTg_cmd (v : Timing) : (s.withTg v).cmd = s.cmd := rfl
@[simp] theorem State.withTg_history (v : Timing) : (s.withTg v).history = s.history := rfl
@[simp] theorem State.withTg_sched (v : Timing) : (s.withTg v).sched = s.sched := rfl
@[simp] theorem State.withTg_tick (v : Timing) : (s.withTg v).tick = s.tick := rfl

/-! ### State.withVideo -/

@[simp] theorem State.withVideo_par (v : Video) : (s.withVideo v).par = s.par := rfl
@[simp] theorem State.withVideo_booted (v : Video) : (s.withVideo v).booted = s.booted := rfl
@[simp] theorem State.withVideo_gdp (v : Video) : (s.withVideo v).gdp = s.gdp := rfl
@[simp] theorem State.withVideo_otherRegs (v : Video) : (s.withVideo v).otherRegs = s.otherRegs := rfl
@[simp] theorem State.withVideo_pagesel (v : Video) : (s.withVideo v).pagesel = s.pagesel := rfl
@[simp] theorem State.withVideo_vblankObserved (v : Video) : (s.withVideo v).vblankObserved = s.vblankObserved := rfl
@[simp] theorem State.withVideo_fb (v : Video) : (s.withVideo v).fb = s.fb := rfl
@[simp] theorem State.withVideo_sync (v : Video) : (s.withVideo v).sync = s.sync := rfl
@[simp] theorem State.withVideo_tg (v : Video) : (s.withVideo v).tg = s.tg := rfl
@[simp] theorem State.withVideo_video (v : Video) : (s.withVideo v).video = v := rfl
@[simp] theorem State.withVideo_refill (v : Video) : (s.withVideo v).refill = s.refill := rfl
@[simp] theorem State.withVideo_tables (v : Video) : (s.withVideo v).tables = s.tables := rfl
@[simp] theorem State.withVideo_cmdq (v : Video) : (s.withVideo v).cmdq = s.cmdq := rfl
@[simp] theorem State.withVideo_pageq (v : Video) : (s.withVideo v).pageq = s.pageq := rfl
@[simp] theorem State.withVideo_cmd (v : Video) : (s.withVideo v).cmd = s.cmd := rfl
@[simp] theorem State.withVideo_history (v : Video) : (s.withVideo v).history = s.history := rfl
@[simp] theorem State.withVideo_sched (v : Video) : (s.withVideo v).sched = s.sched := rfl
@[simp] theorem State.withVideo_tick (v : Video) : (s.withVideo v).tick = s.tick := rfl

/-! ### State.withRefill -/

@[simp] theorem State.withRefill_par (v : Refill) : (s.withRefill v).par = s.par := rfl
@[simp] theorem State.withRefill_booted (v : Refill) : (s.withRefill v).booted = s.booted := rfl
@[simp] theorem State.withRefill_gdp (v : Refill) : (s.withRefill v).gdp = s.gdp := rfl
@[simp] theorem State.withRefill_otherRegs (v : Refill) : (s.withRefill v).otherRegs = s.otherRegs := rfl
@[simp] theorem State.withRefill_pagesel (v : Refill) : (s.withRefill v).pagesel = s.pagesel := rfl
@[simp] theorem State.withRefill_vblankObserved (v : Refill) : (s.withRefill v).vblankObserved = s.vblankObserved := rfl
@[simp] theorem State.withRefill_fb (v : Refill) : (s.withRefill v).fb = s.fb := rfl
@[simp] theorem State.withRefill_sync (v : Refill) : (s.withRefill v).sync = s.sync := rfl
@[simp] theorem State.withRefill_tg (v : Refill) : (s.withRefill v).tg = s.tg := rfl
@[simp] theorem State.withRefill_video (v : Refill) : (s.withRefill v).video = s.video := rfl
@[simp] theorem State.withRefill_refill (v : Refill) : (s.withRefill v).refill = v := rfl
@[simp] theorem State.withRefill_tables (v : Refill) : (s.withRefill v).tables = s.tables := rfl
@[simp] theorem State.withRefill_cmdq (v : Refill) : (s.withRefill v).cmdq = s.cmdq := rfl
@[simp] theorem State.withRefill_pageq (v : Refill) : (s.withRefill v).pageq = s.pageq := rfl
@[simp] theorem State.withRefill_cmd (v : Refill) : (s.withRefill v).cmd = s.cmd := rfl
@[simp] theorem State.withRefill_history (v : Refill) : (s.withRefill v).history = s.history := rfl
@[simp] theorem State.withRefill_sched (v : Refill) : (s.withRefill v).sched = s.sched := rfl
@[simp] theorem State.withRefill_tick (v : Refill) : (s.withRefill v).tick = s.tick := rfl

/-! ### State.withCmdq -/

@[simp] theorem State.withCmdq_par (v : List Byte) : (s.withCmdq v).par = s.par := rfl
@[simp] theorem State.withCmdq_booted (v : List Byte) : (s.withCmdq v).booted = s.booted := rfl
@[simp] theorem State.withCmdq_gdp (v : List Byte) : (s.withCmdq v).gdp = s.gdp := rfl
@[simp] theorem State.withCmdq_otherRegs (v : List Byte) : (s.withCmdq v).otherRegs = s.otherRegs := rfl
@[simp] theorem State.withCmdq_pagesel (v : List Byte) : (s.withCmdq v).pagesel = s.pagesel := rfl
@[simp] theorem State.withCmdq_vblankObserved (v : List Byte) : (s.withCmdq v).vblankObserved = s.vblankObserved := rfl
@[simp] theorem State.withCmdq_fb (v : List Byte) : (s.withCmdq v).fb = s.fb := rfl
@[simp] theorem State.withCmdq_sync (v : List Byte) : (s.withCmdq v).sync = s.sync := rfl
@[simp] theorem State.withCmdq_tg (v : List Byte) : (s.withCmdq v).tg = s.tg := rfl
@[simp] theorem State.withCmdq_video (v : List Byte) : (s.withCmdq v).video = s.video := rfl
@[simp] theorem State.withCmdq_refill (v : List Byte) : (s.withCmdq v).refill = s.refill := rfl
@[simp] theorem State.withCmdq_tables (v : List Byte) : (s.withCmdq v).tables = s.tables := rfl
@[simp] theorem State.withCmdq_cmdq (v : List Byte) : (s.withCmdq v).cmdq = v := rfl
@[simp] theorem State.withCmdq_pageq (v : List Byte) : (s.withCmdq v).pageq = s.pageq := rfl
@[simp] theorem State.withCmdq_cmd (v : List Byte) : (s.withCmdq v).cmd = s.cmd := rfl
@[simp] theorem State.withCmdq_history (v : List Byte) : (s.withCmdq v).history = s.history := rfl
@[simp] theorem State.withCmdq_sched (v : List Byte) : (s.withCmdq v).sched = s.sched := rfl
@[simp] theorem State.withCmdq_tick (v : List Byte) : (s.withCmdq v).tick = s.tick := rfl

/-! ### State.withPageq -/

@[simp] theorem State.withPageq_par (v : List Byte) : (s.withPageq v).par = s.par := rfl
@[simp] theorem State.withPageq_booted (v : List Byte) : (s.withPageq v).booted = s.booted := rfl
@[simp] theorem State.withPageq_gdp (v : List Byte) : (s.withPageq v).gdp = s.gdp := rfl
@[simp] theorem State.withPageq_otherRegs (v : List Byte) : (s.withPageq v).otherRegs = s.otherRegs := rfl
@[simp] theorem State.withPageq_pagesel (v : List Byte) : (s.withPageq v).pagesel = s.pagesel := rfl
@[simp] theorem State.withPageq_vblankObserved (v : List Byte) : (s.withPageq v).vblankObserved = s.vblankObserved := rfl
@[simp] theorem State.withPageq_fb (v : List Byte) : (s.withPageq v).fb = s.fb := rfl
@[simp] theorem State.withPageq_sync (v : List Byte) : (s.withPageq v).sync = s.sync := rfl
@[simp] theorem State.withPageq_tg (v : List Byte) : (s.withPageq v).tg = s.tg := rfl
@[simp] theorem State.withPageq_video (v : List Byte) : (s.withPageq v).video = s.video := rfl
@[simp] theorem State.withPageq_refill (v : List Byte) : (s.withPageq v).refill = s.refill := rfl
@[simp] theorem State.withPageq_tables (v : List Byte) : (s.withPageq v).tables = s.tables := rfl
@[simp] theorem State.withPageq_cmdq (v : List Byte) : (s.withPageq v).cmdq = s.cmdq := rfl
@[simp] theorem State.withPageq_pageq (v : List Byte) : (s.withPageq v).pageq = v := rfl
@[simp] theorem State.withPageq_cmd (v : List Byte) : (s.withPageq v).cmd = s.cmd := rfl
@[simp] theorem State.withPageq_history (v : List Byte) : (s.withPageq v).history = s.history := rfl
@[simp] theorem State.withPageq_sched (v : List Byte) : (s.withPageq v).sched = s.sched := rfl
@[simp] theorem State.withPageq_tick (v : List Byte) : (s.withPageq v).tick = s.tick := rfl

/-! ### State.withCmd -/

@[simp] theorem State.withCmd_par (v : Option Job) : (s.withCmd v).par = s.par := rfl
@[simp] theorem State.withCmd_booted (v : Option Job) : (s.withCmd v).booted = s.booted := rfl
@[simp] theorem State.withCmd_gdp (v : Option Job) : (s.withCmd v).gdp = s.gdp := rfl
@[simp] theorem State.withCmd_otherRegs (v : Option Job) : (s.withCmd v).otherRegs = s.otherRegs := rfl
@[simp] theorem State.withCmd_pagesel (v : Option Job) : (s.withCmd v).pagesel = s.pagesel := rfl
@[simp] theorem State.withCmd_vblankObserved (v : Option Job) : (s.withCmd v).vblankObserved = s.vblankObserved := rfl
@[simp] theorem State.withCmd_fb (v : Option Job) : (s.withCmd v).fb = s.fb := rfl
@[simp] theorem State.withCmd_sync (v : Option Job) : (s.withCmd v).sync = s.sync := rfl
@[simp] theorem State.withCmd_tg (v : Option Job) : (s.withCmd v).tg = s.tg := rfl
@[simp] theorem State.withCmd_video (v : Option Job) : (s.withCmd v).video = s.video := rfl
@[simp] theorem State.withCmd_refill (v : Option Job) : (s.withCmd v).refill = s.refill := rfl
@[simp] theorem State.withCmd_tables (v : Option Job) : (s.withCmd v).tables = s.tables := rfl
@[simp] theorem State.withCmd_cmdq (v : Option Job) : (s.withCmd v).cmdq = s.cmdq := rfl
@[simp] theorem State.withCmd_pageq (v : Option Job) : (s.withCmd v).pageq = s.pageq := rfl
@[simp] theorem State.withCmd_cmd (v : Option Job) : (s.withCmd v).cmd = v := rfl
@[simp] theorem State.withCmd_history (v : Option Job) : (s.withCmd v).history = s.history := rfl
@[simp] theorem State.withCmd_sched (v : Option Job) : (s.withCmd v).sched = s.sched := rfl
@[simp] theorem State.withCmd_tick (v : Option Job) : (s.withCmd v).tick = s.tick := rfl

/-! ### State.withSched -/

@[simp] theorem State.withSched_par (v : List Move) : (s.withSched v).par = s.par := rfl
@[simp] theorem State.withSched_booted (v : List Move) : (s.withSched v).booted = s.booted := rfl
@[simp] theorem State.withSched_gdp (v : List Move) : (s.withSched v).gdp = s.gdp := rfl
@[simp] theorem State.withSched_otherRegs (v : List Move) : (s.withSched v).otherRegs = s.otherRegs := rfl
@[simp] theorem State.withSched_pagesel (v : List Move) : (s.withSched v).pagesel = s.pagesel := rfl
@[simp] theorem State.withSched_vblankObserved (v : List Move) : (s.withSched v).vblankObserved = s.vblankObserved := rfl
@[simp] theorem State.withSched_fb (v : List Move) : (s.withSched v).fb = s.fb := rfl
@[simp] theorem State.withSched_sync (v : List Move) : (s.withSched v).sync = s.sync := rfl
@[simp] theorem State.withSched_tg (v : List Move) : (s.withSched v).tg = s.tg := rfl
@[simp] theorem State.withSched_video (v : List Move) : (s.withSched v).video = s.video := rfl
@[simp] theorem State.withSched_refill (v : List Move) : (s.withSched v).refill = s.refill := rfl
@[simp] theorem State.withSched_tables (v : List Move) : (s.withSched v).tables = s.tables := rfl
@[simp] theorem State.withSched_cmdq (v : List Move) : (s.withSched v).cmdq = s.cmdq := rfl
@[simp] theorem State.withSched_pageq (v : List Move) : (s.withSched v).pageq = s.pageq := rfl
@[simp] theorem State.withSched_cmd (v : List Move) : (s.withSched v).cmd = s.cmd := rfl
@[simp] theorem State.withSched_history (v : List Move) : (s.withSched v).history = s.history := rfl
@[simp] theorem State.withSched_sched (v : List Move) : (s.withSched v).sched = v := rfl
@[simp] theorem State.withSched_tick (v : List Move) : (s.withSched v).tick = s.tick := rfl

/-! ### State.withTick -/

@[simp] theorem State.withTick_par (v : Nat) : (s.withTick v).par = s.par := rfl
@[simp] theorem State.withTick_booted (v : Nat) : (s.withTick v).booted = s.booted := rfl
@[simp] theorem State.withTick_gdp (v : Nat) : (s.withTick v).gdp = s.gdp := rfl
@[simp] theorem State.withTick_otherRegs (v : Nat) : (s.withTick v).otherRegs = s.otherRegs := rfl
@[simp] theorem State.withTick_pagesel (v : Nat) : (s.withTick v).pagesel = s.pagesel := rfl
@[simp] theorem State.withTick_vblankObserved (v : Nat) : (s.withTick v).vblankObserved = s.vblankObserved := rfl
@[simp] theorem State.withTick_fb (v : Nat) : (s.withTick v).fb = s.fb := rfl
@[simp] theorem State.withTick_sync (v : Nat) : (s.withTick v).sync = s.sync := rfl
@[simp] theorem State.withTick_tg (v : Nat) : (s.withTick v).tg = s.tg := rfl
@[simp] theorem State.withTick_video (v : Nat) : (s.withTick v).video = s.video := rfl
@[simp] theorem State.withTick_refill (v : Nat) : (s.withTick v).refill = s.refill := rfl
@[simp] theorem State.withTick_tables (v : Nat) : (s.withTick v).tables = s.tables := rfl
@[simp] theorem State.withTick_cmdq (v : Nat) : (s.withTick v).cmdq = s.cmdq := rfl
@[simp] theorem State.withTick_pageq (v : Nat) : (s.withTick v).pageq = s.pageq := rfl
@[simp] theorem State.withTick_cmd (v : Nat) : (s.withTick v).cmd = s.cmd := rfl
@[simp] theorem State.withTick_history (v : Nat) : (s.withTick v).history = s.history := rfl
@[simp] theorem State.withTick_sched (v : Nat) : (s.withTick v).sched = s.sched := rfl
@[simp] theorem State.withTick_tick (v : Nat) : (s.withTick v).tick = v := rfl

/-! ### State.emit -/

@[simp] theorem State.emit_par (e : Event) : (s.emit e).par = s.par := rfl
@[simp] theorem State.emit_booted (e : Event) : (s.emit e).booted = s.booted := rfl
@[simp] theorem State.emit_gdp (e : Event) : (s.emit e).gdp = s.gdp := rfl
@[simp] theorem State.emit_otherRegs (e : Event) : (s.emit e).otherRegs = s.otherRegs := rfl
@[simp] theorem State.emit_pagesel (e : Event) : (s.emit e).pagesel = s.pagesel := rfl
@[simp] theorem State.emit_vblankObserved (e : Event) : (s.emit e).vblankObserved = s.vblankObserved := rfl
@[simp] theorem State.emit_fb (e : Event) : (s.emit e).fb = s.fb := rfl
@[simp] theorem State.emit_sync (e : Event) : (s.emit e).sync = s.sync := rfl
@[simp] theorem State.emit_tg (e : Event) : (s.emit e).tg = s.tg := rfl
@[simp] theorem State.emit_video (e : Event) : (s.emit e).video = s.video := rfl
@[simp] theorem State.emit_refill (e : Event) : (s.emit e).refill = s.refill := rfl
@[simp] theorem State.emit_tables (e : Event) : (s.emit e).tables = s.tables := rfl
@[simp] theorem State.emit_cmdq (e : Event) : (s.emit e).cmdq = s.cmdq := rfl
@[simp] theorem State.emit_pageq (e : Event) : (s.emit e).pageq = s.pageq := rfl
@[simp] theorem State.emit_cmd (e : Event) : (s.emit e).cmd = s.cmd := rfl
@[simp] theorem State.emit_history (e : Event) : (s.emit e).history = s.history ++ [e] := rfl
@[simp] theorem State.emit_sched (e : Event) : (s.emit e).sched = s.sched := rfl
@[simp] theorem State.emit_tick (e : Event) : (s.emit e).tick = s.tick := rfl

/-! ### setReg -/

@[simp] theorem setReg_par (r : Reg) (v : Byte) : (setReg s r v).par = s.par := rfl
@[simp] theorem setReg_booted (r : Reg) (v : Byte) : (setReg s r v).booted = s.booted := rfl
@[simp] theorem setReg_gdp (r : Reg) (v : Byte) : (setReg s r v).gdp = s.gdp.set r v := rfl
@[simp] theorem setReg_otherRegs (r : Reg) (v : Byte) : (setReg s r v).otherRegs = s.otherRegs := rfl
@[simp] theorem setReg_pagesel (r : Reg) (v : Byte) : (setReg s r v).pagesel = s.pagesel := rfl
@[simp] theorem setReg_vblankObserved (r : Reg) (v : Byte) : (setReg s r v).vblankObserved = s.vblankObserved := rfl
@[simp] theorem setReg_fb (r : Reg) (v : Byte) : (setReg s r v).fb = s.fb := rfl
@[simp] theorem setReg_sync (r : Reg) (v : Byte) : (setReg s r v).sync = s.sync := rfl
@[simp] theorem setReg_tg (r : Reg) (v : Byte) : (setReg s r v).tg = s.tg := rfl
@[simp] theorem setReg_video (r : Reg) (v : Byte) : (setReg s r v).video = s.video := rfl
@[simp] theorem setReg_refill (r : Reg) (v : Byte) : (setReg s r v).refill = s.refill := rfl
@[simp] theorem setReg_tables (r : Reg) (v : Byte) : (setReg s r v).tables = s.tables := rfl
@[simp] theorem setReg_cmdq (r : Reg) (v : Byte) : (setReg s r v).cmdq = s.cmdq := rfl
@[simp] theorem setReg_pageq (r : Reg) (v : Byte) : (setReg s r v).pageq = s.pageq := rfl
@[simp] theorem setReg_cmd (r : Reg) (v : Byte) : (setReg s r v).cmd = s.cmd := rfl
@[simp] theorem setReg_history (r : Reg) (v : Byte) : (setReg s r v).history = s.history := rfl
@[simp] theorem setReg_sched (r : Reg) (v : Byte) : (setReg s r v).sched = s.sched := rfl
@[simp] theorem setReg_tick (r : Reg) (v : Byte) : (setReg s r v).tick = s.tick := rfl

/-! ### clearSetBits -/

@[simp] theorem clearSetBits_par (r : Reg) (c v : Byte) : (clearSetBits s r c v).par = s.par := rfl
@[simp] theorem clearSetBits_booted (r : Reg) (c v : Byte) : (clearSetBits s r c v).booted = s.booted := rfl
@[simp] theorem clearSetBits_gdp (r : Reg) (c v : Byte) : (clearSetBits s r c v).gdp = s.gdp.set r ((s.gdp.get r &&& ~~~c) ||| v) := rfl
@[simp] theorem clearSetBits_otherRegs (r : Reg) (c v : Byte) : (clearSetBits s r c v).otherRegs = s.otherRegs := rfl
@[simp] theorem clearSetBits_pagesel (r : Reg) (c v : Byte) : (clearSetBits s r c v).pagesel = s.pagesel := rfl
@[simp] theorem clearSetBits_vblankObserved (r : Reg) (c v : Byte) : (clearSetBits s r c v).vblankObserved = s.vblankObserved := rfl
@[simp] theorem clearSetBits_fb (r : Reg) (c v : Byte) : (clearSetBits s r c v).fb = s.fb := rfl
@[simp] theorem clearSetBits_sync (r : Reg) (c v : Byte) : (clearSetBits s r c v).sync = s.sync := rfl
@[simp] theorem clearSetBits_tg (r : Reg) (c v : Byte) : (clearSetBits s r c v).tg = s.tg := rfl
@[simp] theorem clearSetBits_video (r : Reg) (c v : Byte) : (clearSetBits s r c v).video = s.video := rfl
@[simp] theorem clearSetBits_refill (r : Reg) (c v : Byte) : (clearSetBits s r c v).refill = s.refill := rfl
@[simp] theorem clearSetBits_tables (r : Reg) (c v : Byte) : (clearSetBits s r c v).tables = s.tables := rfl
@[simp] theorem clearSetBits_cmdq (r : Reg) (c v : Byte) : (clearSetBits s r c v).cmdq = s.cmdq := rfl
@[simp] theorem clearSetBits_pageq (r : Reg) (c v : Byte) : (clearSetBits s r c v).pageq = s.pageq := rfl
@[simp] theorem clearSetBits_cmd (r : Reg) (c v : Byte) : (clearSetBits s r c v).cmd = s.cmd := rfl
@[simp] theorem clearSetBits_history (r : Reg) (c v : Byte) : (clearSetBits s r c v).history = s.history := rfl
@[simp] theorem clearSetBits_sched (r : Reg) (c v : Byte) : (clearSetBits s r c v).sched = s.sched := rfl
@[simp] theorem clearSetBits_tick (r : Reg) (c v : Byte) : (clearSetBits s r c v).tick = s.tick := rfl

/-! ### fbStore -/

@[simp] theorem fbStore_par (w : Nat) (v : Word) : (fbStore s w v).par = s.par := rfl
@[simp] theorem fbStore_booted (w : Nat) (v : Word) : (fbStore s w v).booted = s.booted := rfl
@[simp] theorem fbStore_gdp (w : Nat) (v : Word) : (fbStore s w v).gdp = s.gdp := rfl
@[simp] theorem fbStore_otherRegs (w : Nat) (v : Word) : (fbStore s w v).otherRegs = s.otherRegs := rfl
@[simp] theorem fbStore_pagesel (w : Nat) (v : Word) : (fbStore s w v).pagesel = s.pagesel := rfl
@[simp] theorem fbStore_vblankObserved (w : Nat) (v : Word) : (fbStore s w v).vblankObserved = s.vblankObserved := rfl
@[simp] theorem fbStore_fb (w : Nat) (v : Word) : (fbStore s w v).fb = wordWrite s.fb w v := rfl
@[simp] theorem fbStore_sync (w : Nat) (v : Word) : (fbStore s w v).sync = s.sync := rfl
@[simp] theorem fbStore_tg (w : Nat) (v : Word) : (fbStore s w v).tg = s.tg := rfl
@[simp] theorem fbStore_video (w : Nat) (v : Word) : (fbStore s w v).video = s.video := rfl
@[simp] theorem fbStore_refill (w : Nat) (v : Word) : (fbStore s w v).refill = s.refill := rfl
@[simp] theorem fbStore_tables (w : Nat) (v : Word) : (fbStore s w v).tables = s.tables := rfl
@[simp] theorem fbStore_cmdq (w : Nat) (v : Word) : (fbStore s w v).cmdq = s.cmdq := rfl
@[simp] theorem fbStore_pageq (w : Nat) (v : Word) : (fbStore s w v).pageq = s.pageq := rfl
@[simp] theorem fbStore_cmd (w : Nat) (v : Word) : (fbStore s w v).cmd = s.cmd := rfl
@[simp] theorem fbStore_history (w : Nat) (v : Word) : (fbStore s w v).history = s.history := rfl
@[simp] theorem fbStore_sched (w : Nat) (v : Word) : (fbStore s w v).sched = s.sched := rfl
@[simp] theorem fbStore_tick (w : Nat) (v : Word) : (fbStore s w v).tick = s.tick := rfl

end Sys2Proof.Machine
end

