-- ==== Sys2Proof/Laws/Command.lean ====
section
/-! SUPPORT. Laws of the register file and of the command engine: what one access can change, and what a plot does. -/

namespace Sys2Proof.Machine

/-! ### Registers -/

@[simp] theorem Gdp.get_set_same (g : Gdp) (r : Reg) (v : Byte) : (g.set r v).get r = v := by cases r <;> rfl

theorem Gdp.get_set_ne (g : Gdp) {r q : Reg} (v : Byte) (h : q ≠ r) : (g.set r v).get q = g.get q := by
  cases r <;> cases q <;> first | rfl | exact absurd rfl h

/-! ### What accesses can change -/

/-- Two states that differ at most in the GDP registers and the framebuffer. -/
def OnlyGdpFb (s t : State) : Prop := t = { s with gdp := t.gdp, fb := t.fb }

theorem OnlyGdpFb.refl (s : State) : OnlyGdpFb s s := rfl

theorem OnlyGdpFb.trans {s t u : State} (h : OnlyGdpFb s t) (k : OnlyGdpFb t u) : OnlyGdpFb s u := by
  unfold OnlyGdpFb at *
  rw [k, h]

/-- An access changes at most the GDP registers and the framebuffer. -/
theorem access_only (m : Micro) (c : Latch × State) : OnlyGdpFb c.2 (access m c).2 := by
  cases m <;> simp only [access] <;> first | rfl | (split <;> rfl)

@[simp] theorem accesses_nil (c : Latch × State) : accesses [] c = c := rfl
@[simp] theorem accesses_cons (m : Micro) (ms : List Micro) (c : Latch × State) :
    accesses (m :: ms) c = accesses ms (access m c) := rfl
@[simp] theorem accesses_append (ms ns : List Micro) (c : Latch × State) :
    accesses (ms ++ ns) c = accesses ns (accesses ms c) := List.foldl_append

/-- Accesses change at most the GDP registers and the framebuffer. -/
theorem accesses_only (ms : List Micro) : ∀ c : Latch × State, OnlyGdpFb c.2 (accesses ms c).2 := by
  induction ms with
  | nil => exact fun c => .refl c.2
  | cons m ms ih => exact fun c => (access_only m c).trans (ih (access m c))

/-- A whole command changes at most the GDP registers and the framebuffer. -/
theorem runCommand_only (rs : List Reg) (body : Gdp → State → List Micro) (s : State) :
    OnlyGdpFb s (runCommand rs body s) := accesses_only _ _

/-! ### Plots -/

theorem pixel_withFb (s : State) (m : Memory) (p : BitVec 2) (x : BitVec 9) (y : BitVec 8) :
    pixel (s.withFb m).fb p x y = pixel m p x y := rfl

/-- The accesses of one plot: nothing outside the screen or in an inert mode; else one FB word read and written back with
the pixel's bit set or cleared (R290). -/
theorem plotMicros_state (q : Point) (c : Latch × State) :
    (accesses (plotMicros q) c).2 =
      if onScreen q = true then
        match modeOf c.2.gdp.ctrl1 with
        | .inert => c.2
        | .draw => fbStore c.2 (fbIndex (drawPage c.2) (pixWord (BitVec.ofInt 9 q.1) (BitVec.ofInt 8 q.2)))
            (setBit (fbLoad c.2 (fbIndex (drawPage c.2) (pixWord (BitVec.ofInt 9 q.1) (BitVec.ofInt 8 q.2)))) (pixBit (BitVec.ofInt 9 q.1)))
        | .erase => fbStore c.2 (fbIndex (drawPage c.2) (pixWord (BitVec.ofInt 9 q.1) (BitVec.ofInt 8 q.2)))
            (clearBit (fbLoad c.2 (fbIndex (drawPage c.2) (pixWord (BitVec.ofInt 9 q.1) (BitVec.ofInt 8 q.2)))) (pixBit (BitVec.ofInt 9 q.1)))
      else c.2 := by
  unfold plotMicros
  split
  · simp only [accesses_cons, accesses_nil, access, getReg, Gdp.get]
    cases h : modeOf c.2.gdp.ctrl1 <;> simp
  · rfl

end Sys2Proof.Machine
end

