-- ==== Sys2Proof/Laws/Operands.lean ====
section
/-! SUPPORT. Laws of the operands and of the accesses the commands share: the cursor read back, both cursor registers
written, the completion, the advance of a character, the words of a clear, and the number of points of a line. -/

namespace Sys2Proof.Machine

/-! ### Operands -/

/-- A vector or character command reads the cursor, whichever of the three operand lists it reads. -/
theorem readOperands_cursor (s : State) {rs : List Reg} (h : rs = vecRegs ∨ rs = svecRegs ∨ rs = charRegs) :
    cursorX (readOperands s rs).gdp = cursorX s.gdp ∧ cursorY (readOperands s rs).gdp = cursorY s.gdp := by
  rcases h with rfl | rfl | rfl <;> exact ⟨rfl, rfl⟩

/-- The two loops make as many points as steps. -/
theorem xMajorPoints_length (dx dy : Nat) (stx sty : Int) :
    ∀ (n : Nat) (x y err : Int), (xMajorPoints dx dy stx sty n x y err).length = n := by
  intro n
  induction n with
  | zero => intros; rfl
  | succ n ih => intros; simp only [xMajorPoints]; split <;> simp [ih]

theorem yMajorPoints_length (dx dy : Nat) (stx sty : Int) :
    ∀ (n : Nat) (x y err : Int), (yMajorPoints dx dy stx sty n x y err).length = n := by
  intro n
  induction n with
  | zero => intros; rfl
  | succ n ih => intros; simp only [yMajorPoints]; split <;> simp [ih]

/-! ### Register writes -/

/-- The busy clear of a command's end. -/
theorem accesses_completion (c : Latch × State) :
    (accesses (completion c.2.par) c).2 = c.2.withGdp { c.2.gdp with status := busyCleared c.2 } := by
  simp [completion, access, clearSetBits, setReg, getReg, Gdp.get, Gdp.set, busyCleared, State.withGdp]

/-- Both cursor registers written and the busy clear. -/
theorem accesses_cursor_completion (x y : BitVec 16) (c : Latch × State) :
    (accesses ((putX x ++ putY y) ++ completion c.2.par) c).2 = c.2.withGdp (cursorAfter c.2 x y) := by
  simp [putX, putY, completion, access, setReg, clearSetBits, getReg, Gdp.get, Gdp.set, cursorAfter, busyCleared,
    State.withGdp]

theorem highByte_append (a b : Byte) : ((a ++ b : BitVec 16).extractLsb' 8 8) = a := by
  apply BitVec.eq_of_getLsbD_eq
  intro i hi
  rw [BitVec.getLsbD_extractLsb', show (a ++ b : BitVec 16).getLsbD (8 + i) = _ from BitVec.getLsbD_append ..]
  simp [hi]

theorem lowByte_append (a b : Byte) : ((a ++ b : BitVec 16).extractLsb' 0 8) = b := by
  apply BitVec.eq_of_getLsbD_eq
  intro i hi
  rw [BitVec.getLsbD_extractLsb', show (a ++ b : BitVec 16).getLsbD (0 + i) = _ from BitVec.getLsbD_append ..]
  simp [hi]

/-- The advance of a character and the busy clear. -/
theorem accesses_advance_completion (c : Latch × State) :
    (accesses (advanceMicros c.2.gdp ++ completion c.2.par) c).2 = c.2.withGdp (afterCharacter c.2) := by
  have hadd : ∀ (v : BitVec 16) (n : Nat), BitVec.ofNat 16 (v.toNat + n) = v + BitVec.ofNat 16 n := fun v n => by
    apply BitVec.eq_of_toNat_eq
    simp
  unfold advanceMicros afterCharacter
  rw [hadd, hadd]
  split <;>
    simp [putX, putY, completion, access, setReg, clearSetBits, getReg, Gdp.get, Gdp.set, cursorAfter, busyCleared,
      State.withGdp, cursorX, cursorY, highByte_append, lowByte_append]

/-! ### Clears -/

/-- Words of the page read, cleared: they read 0, every other byte is as before, and nothing else changes. -/
theorem accesses_clearWords (ns : List Nat) :
    ∀ c : Latch × State, (∀ n ∈ ns, n < pageWords) →
      accesses (ns.map fun w => .clearWord (BitVec.ofNat 12 w)) c =
          (c.1, c.2.withFb (accesses (ns.map fun w => .clearWord (BitVec.ofNat 12 w)) c).2.fb) ∧
        ∀ a, memRead (accesses (ns.map fun w => .clearWord (BitVec.ofNat 12 w)) c).2.fb a =
          if ∃ n ∈ ns, a / 4 = c.1.page.toNat * 4096 + n then 0 else memRead c.2.fb a := by
  induction ns with
  | nil => exact fun c _ => ⟨rfl, fun a => by simp⟩
  | cons n ns ih =>
    intro c hn
    simp only [List.map_cons, accesses_cons]
    obtain ⟨h1, h2⟩ := ih (access (.clearWord (BitVec.ofNat 12 n)) c) fun x hx => hn x (by simp [hx])
    refine ⟨by rw [h1]; rfl, fun a => ?_⟩
    have hlt : n < 4096 := hn n (by simp)
    rw [h2]
    simp only [access, fbStore_fb, memRead_wordWrite, fbIndex, BitVec.toNat_ofNat, List.mem_cons, exists_eq_or_imp]
    rw [Nat.mod_eq_of_lt (show n < 2 ^ 12 by omega)]
    by_cases e1 : ∃ m ∈ ns, a / 4 = c.1.page.toNat * 4096 + m
    · rw [if_pos e1, if_pos (.inr e1)]
    · by_cases e2 : a / 4 = c.1.page.toNat * 4096 + n <;> simp [e1, e2]

/-- The clear of the draw page: its bytes read 0, every other byte is as before, and nothing else changes. -/
theorem accesses_clearPage (c : Latch × State) :
    (accesses clearPage c).2 = c.2.withFb (accesses clearPage c).2.fb ∧
      ∀ a, memRead (accesses clearPage c).2.fb a = if a / 16384 = (drawPage c.2).toNat then 0 else memRead c.2.fb a := by
  obtain ⟨h1, h2⟩ := accesses_clearWords (List.range pageWords) (access .latchPage c) fun n hn => List.mem_range.mp hn
  rw [clearPage, accesses_cons]
  generalize accesses _ (access .latchPage c) = d at h1 h2 ⊢
  refine ⟨congrArg Prod.snd h1, fun a => (h2 a).trans ?_⟩
  have hpage : (access .latchPage c).1.page = drawPage c.2 := rfl
  have hiff : (∃ n ∈ List.range pageWords, a / 4 = (drawPage c.2).toNat * 4096 + n) ↔ a / 16384 = (drawPage c.2).toNat := by
    simp only [List.mem_range, pageWords]
    exact ⟨fun ⟨n, hn, h⟩ => by omega, fun h => ⟨a / 4 % 4096, by omega, by omega⟩⟩
  rw [hpage]
  simp only [hiff]
  rfl

/-! ### Bits of a pixel word -/

theorem setBit_getLsbD (v : Word) {t : Nat} (i : Nat) (ht : t < 32) :
    (setBit v t).getLsbD i = (decide (i = t) || v.getLsbD i) := by
  simp only [setBit, BitVec.getLsbD_or, BitVec.getLsbD_shiftLeft]
  by_cases h : i = t
  · subst h
    simp [ht]
  · simp [h]
    intro _ h2
    omega

theorem clearBit_getLsbD (v : Word) {t : Nat} (i : Nat) (ht : t < 32) :
    (clearBit v t).getLsbD i = (!decide (i = t) && v.getLsbD i) := by
  simp only [clearBit, BitVec.getLsbD_and, BitVec.getLsbD_not, BitVec.getLsbD_shiftLeft]
  by_cases h : i = t
  · subst h
    simp [ht]
  · by_cases hi : i < 32
    · simp [h, hi]
      intro h1
      omega
    · simp [hi]
      intro _
      exact BitVec.getLsbD_of_ge _ _ (by omega)

theorem onScreen_iff (q : Point) : onScreen q = true ↔ 0 ≤ q.1 ∧ q.1 < 512 ∧ 0 ≤ q.2 ∧ q.2 < 256 := by
  simp [onScreen, and_assoc]

end Sys2Proof.Machine
end

