-- ==== Sys2Proof/Laws/Sequencer.lean ====
section
/-! SUPPORT. Laws of the scan format, of BUILD and of descriptor words. -/

namespace Sys2Proof.Machine

/-- The catalogue has NUM_SCAN_FORMATS formats, each listed once (R10). -/
theorem formatName_all :
    FormatName.all.length = numScanFormats ∧ FormatName.all.Nodup ∧ ∀ f, f ∈ FormatName.all := by
  refine ⟨rfl, by decide, fun f => ?_⟩
  cases f <;> decide

/-- The parameters of the launch lie in the ranges R10 and R11 give them, whatever the open ones are. -/
theorem config_params_wf : Config.params.wf = true := by
  have hh : Config.format ≠ .scaledHd ∨ Config.hReplicate Config.format = 3 := by
    cases Config.format <;> simp [Config.hReplicate]
  have hn : 128 + Config.regfileExtra.val ≤ 256 := by omega
  simpa [Params.wf, Config.params, hn] using hh

/-- A scan format that passes every check of R152, said once. -/
theorem formatError_none_iff (p : Params) :
    formatError p = none ↔
      p.scanFormat.length ≤ 4 ∧ (∀ b ∈ p.scanFormat, b.words.length = 1 ∨ b.words.length = 2) ∧
        (1 ≤ formatLength p.scanFormat ∧ formatLength p.scanFormat ≤ 4096) ∧
        (∀ b ∈ p.scanFormat, ∀ w ∈ b.words, wordWf w = true) ∧
        ∀ t, p.period = some t → formatCycles p.durationBias p.scanFormat = t := by
  unfold formatError
  constructor
  · intro h
    split at h
    · cases h
    split at h
    · cases h
    split at h
    · cases h
    split at h
    · cases h
    rename_i h1 h2 h3 h4
    simp at h1 h2 h3 h4
    refine ⟨h1, fun b hb => Decidable.or_iff_not_imp_left.mpr (h2 b hb), by omega, h4, fun t ht => ?_⟩
    rw [ht] at h
    simpa using h
  · rintro ⟨h1, h2, h3, h4, h5⟩
    rw [if_neg (by omega), if_neg (by simpa [or_iff_not_imp_left] using h2), if_neg (by simp; omega), if_neg (by simpa using h4)]
    split
    · rfl
    · simp [h5 _ ‹_›]

theorem blockWords_length (b : PatternBlock) : (blockWords b).length = b.words.length * b.count := by
  simp [blockWords, Nat.mul_comm]

/-- The flattened sequence has the format's length (R153). -/
theorem flatWords_length (f : ScanFormat) : (flatWords f).length = formatLength f := by
  induction f with
  | nil => rfl
  | cons b f ih =>
    simp only [flatWords, formatLength] at ih
    simp only [flatWords, formatLength, List.flatMap_cons, List.length_append, List.map_cons, List.sum_cons,
      blockWords_length, ih]

/-- Every word of the flattened sequence is a word of the format. -/
theorem mem_flatWords {f : ScanFormat} {w : Word} (h : w ∈ flatWords f) : ∃ b ∈ f, w ∈ b.words := by
  simp only [flatWords, List.mem_flatMap, blockWords, List.mem_flatten, List.mem_replicate] at h
  obtain ⟨b, hb, ws, ⟨_, rfl⟩, hw⟩ := h
  exact ⟨b, hb, hw⟩

/-- A descriptor without reserved bits decodes to PULSE_DS or PULSE by its bit 11 (R120, R122). -/
theorem decodeDescriptor_of_wf {d : Descriptor} (h : descriptorWf d = true) :
    decodeDescriptor d =
      .ok (if d.getLsbD 11 then .pulseDs (d.extractLsb' 10 1) (d.extractLsb' 0 10)
        else .pulse (d.extractLsb' 10 1) (d.extractLsb' 0 10)) := by
  have hr : ∀ i, 12 ≤ i → i < 16 → d.getLsbD i = false := fun i h1 h2 => by
    have he : d.extractLsb' 12 4 = 0#4 := by simpa [descriptorWf] using h
    have := congrArg (fun v : BitVec 4 => v.getLsbD (i - 12)) he
    simp [show i - 12 < 4 by omega, show 12 + (i - 12) = i by omega] at this
    exact this
  have top : ∀ c : Bool, d.getLsbD 11 = c → d &&& 0xF800#16 = if c then 0x0800#16 else 0x0000#16 := fun c hc => by
    apply BitVec.eq_of_getLsbD_eq
    intro i hi
    have h12 := hr 12 (by omega) (by omega)
    have h13 := hr 13 (by omega) (by omega)
    have h14 := hr 14 (by omega) (by omega)
    have h15 := hr 15 (by omega) (by omega)
    interval_cases i <;> cases c <;> simp_all
  unfold decodeDescriptor
  cases h11 : d.getLsbD 11 <;> simp [top _ h11]

end Sys2Proof.Machine
end

