-- ==== Sys2Proof/Laws/PerInstr.lean ====
section
/-! SUPPORT. One lemma per instruction: the bits of its encoding are those its row of spec/opcode_table.json fixes. -/

namespace Sys2Proof.Laws.TableRow

open Sys2Proof Sys2Proof.Machine

/-- The command byte `b` matches row `n` of the command table. -/
abbrev matchesRow (b : Byte) (n : Nat) : Prop := b &&& (commandRows.getD n (0, 0)).1 = (commandRows.getD n (0, 0)).2

/-- A well-formed instruction's encoding has the bits its row fixes: a command's, those of its row of the command table; a
pulse's, 15:11 = 00000 or 00001; a page byte's row fixes none. -/
def Statement (i : Instr) : Prop :=
  i.wf = true →
    match encode i with
    | .command b => ∃ n, commandRow i = some n ∧ matchesRow b n
    | .descriptor d => commandRow i = none ∧ descriptorWf d = true ∧ (d.extractLsb' 11 1 = 1 ↔ ∃ l t, i = .pulseDs l t)
    | .pageByte _ => commandRow i = none

theorem bit1 (r : BitVec 1) : r = 0 ∨ r = 1 := by revert r; decide
theorem bit2 (r : BitVec 2) : r = 0 ∨ r = 1 ∨ r = 2 ∨ r = 3 := by revert r; decide

theorem pen : Statement .pen := fun _ => ⟨0, rfl, by decide⟩
theorem eraser : Statement .eraser := fun _ => ⟨1, rfl, by decide⟩
theorem pendown : Statement .pendown := fun _ => ⟨2, rfl, by decide⟩
theorem penup : Statement .penup := fun _ => ⟨3, rfl, by decide⟩
theorem cls : Statement .cls := fun _ => ⟨4, rfl, by decide⟩
theorem xyrst : Statement .xyrst := fun _ => ⟨5, rfl, by decide⟩
theorem clsxy : Statement .clsxy := fun _ => ⟨6, rfl, by decide⟩
theorem reset : Statement .reset := fun _ => ⟨7, rfl, by decide⟩
theorem nop08 (reserved : BitVec 1) : Statement (.nop08 reserved) := fun _ =>
  ⟨8, rfl, by rcases bit1 reserved with rfl | rfl <;> decide⟩
theorem cursor : Statement .cursor := fun _ => ⟨9, rfl, by decide⟩
theorem nop0B : Statement .nop0B := fun _ => ⟨10, rfl, by decide⟩
theorem nop0C (reserved : BitVec 2) : Statement (.nop0C reserved) := fun _ =>
  ⟨11, rfl, by rcases bit2 reserved with rfl | rfl | rfl | rfl <;> decide⟩
theorem vec (sy sx a : BitVec 1) : Statement (.vec sy sx a) := fun _ =>
  ⟨12, rfl, by rcases bit1 sy with rfl | rfl <;> rcases bit1 sx with rfl | rfl <;> rcases bit1 a with rfl | rfl <;> decide⟩
theorem vecEq (sy sx a : BitVec 1) : Statement (.vecEq sy sx a) := fun _ =>
  ⟨13, rfl, by rcases bit1 sy with rfl | rfl <;> rcases bit1 sx with rfl | rfl <;> rcases bit1 a with rfl | rfl <;> decide⟩

theorem charBytes :
    (∀ g : Fin 256, (Instr.char20 (BitVec.ofFin g)).wf = true → (BitVec.ofFin g : Byte) &&& 0xE0 = 0x20) ∧
      ∀ g : Fin 256, (Instr.char40 (BitVec.ofFin g)).wf = true → (BitVec.ofFin g : Byte) &&& 0xC0 = 0x40 := by
  decide +kernel

theorem char20 (glyph : Byte) : Statement (.char20 glyph) := fun h => ⟨14, rfl, charBytes.1 glyph.toFin h⟩
theorem char40 (glyph : Byte) : Statement (.char40 glyph) := fun h => ⟨15, rfl, charBytes.2 glyph.toFin h⟩

theorem svec (dx dy : BitVec 2) (sy sx a : BitVec 1) : Statement (.svec dx dy sy sx a) := fun _ =>
  ⟨16, rfl, by
    rcases bit2 dx with rfl | rfl | rfl | rfl <;> rcases bit2 dy with rfl | rfl | rfl | rfl <;>
      rcases bit1 sy with rfl | rfl <;> rcases bit1 sx with rfl | rfl <;> rcases bit1 a with rfl | rfl <;> decide⟩

theorem pulseBits :
    (∀ n : Fin 2048, descriptorWf (0b00000#5 ++ BitVec.ofFin (w := 11) n : Descriptor) = true ∧
      (0b00000#5 ++ BitVec.ofFin (w := 11) n : Descriptor).extractLsb' 11 1 = 0#1) ∧
    ∀ n : Fin 2048, descriptorWf (0b00001#5 ++ BitVec.ofFin (w := 11) n : Descriptor) = true ∧
      (0b00001#5 ++ BitVec.ofFin (w := 11) n : Descriptor).extractLsb' 11 1 = 1#1 := by
  decide +kernel

theorem pulse (lvl : BitVec 1) (dur : BitVec 10) : Statement (.pulse lvl dur) := fun _ => by
  have h := pulseBits.1 (lvl ++ dur).toFin
  have he : (0b00000#5 ++ lvl ++ dur : BitVec 16) = (0b00000#5 ++ (lvl ++ dur) : BitVec 16) := BitVec.append_assoc ..
  refine ⟨rfl, ?_, ?_⟩
  · rw [he]
    exact h.1
  · rw [he]
    refine ⟨fun h1 => ?_, fun ⟨_, _, h1⟩ => by cases h1⟩
    have : (0#1 : BitVec 1) = 1 := h.2.symm.trans h1
    cases this

theorem pulseDs (lvl : BitVec 1) (dur : BitVec 10) : Statement (.pulseDs lvl dur) := fun _ => by
  have h := pulseBits.2 (lvl ++ dur).toFin
  have he : (0b00001#5 ++ lvl ++ dur : BitVec 16) = (0b00001#5 ++ (lvl ++ dur) : BitVec 16) := BitVec.append_assoc ..
  refine ⟨rfl, ?_, ?_⟩
  · rw [he]
    exact h.1
  · rw [he]
    exact ⟨fun _ => ⟨lvl, dur, rfl⟩, fun _ => h.2⟩

theorem page (disp draw : BitVec 2) (ignored : BitVec 4) : Statement (.page disp draw ignored) := fun _ => rfl

end Sys2Proof.Laws.TableRow
end

