-- ==== Sys2Proof/Laws/Step.lean ====
section
/-! SUPPORT. What a step can do, said once. -/

namespace Sys2Proof.Machine

/-- Taking the next move changes only the schedule. -/
theorem takeMove_only (s : State) : (takeMove s).2 = { s with sched := (takeMove s).2.sched, tick := (takeMove s).2.tick } := by
  unfold takeMove
  split <;> rfl

/-- A step that answers next is the boot of a well-formed format, or a move run on a booted state. -/
theorem step_cases {s t : State} (h : step s = .next t) :
    (s.booted = false ∧ formatError s.par = none ∧ t = bootState s) ∨
      (s.booted = true ∧ runMove (takeMove s).1 (takeMove s).2 = .next t) := by
  unfold step at h
  split at h
  · rename_i hb
    unfold bootStep at h
    split at h
    · cases h
    · cases h
      exact .inl ⟨hb, ‹_›, rfl⟩
  · exact .inr ⟨‹_›, h⟩

/-- A command's exec answers next, with at most the GDP registers and the framebuffer changed. -/
theorem exec_command {i : Instr} (hi : isCommand i = true) (s : State) :
    exec i s = .next (runCommand (commandRegs i) (commandMicros i) s) := by
  cases i <;> first | rfl | cases hi

theorem isCommand_ite {c : Prop} [Decidable c] {i j : Instr} (hi : isCommand i = true) (hj : isCommand j = true) :
    isCommand (if c then i else j) = true := by
  split <;> assumption

/-- The decoder of command bytes answers commands. -/
theorem decodeCommand_isCommand (b : Byte) : isCommand (decodeCommand b) = true := by
  unfold decodeCommand
  repeat' first | exact rfl | apply isCommand_ite

/-! ### What a move can do, said once -/

/-- What every move but those of SYNC, TG, SYNC_IRQ, DATA and LUTP leaves alone: the parameters, the sequencer, the video
pipeline, the tables and the history. -/
def OnlyHostSide (s t : State) : Prop :=
  t = { s with
    gdp := t.gdp, otherRegs := t.otherRegs, pagesel := t.pagesel, vblankObserved := t.vblankObserved, fb := t.fb
    cmdq := t.cmdq, pageq := t.pageq, cmd := t.cmd }

theorem OnlyGdpFb.onlyHostSide {s t : State} (h : OnlyGdpFb s t) : OnlyHostSide s t := by
  unfold OnlyHostSide
  rw [h]

/-- A command byte's exec changes at most the GDP registers and the framebuffer. -/
theorem exec_decodeCommand_only {b : Byte} {s t : State} (h : exec (decodeCommand b) s = .next t) : OnlyGdpFb s t := by
  rw [exec_command (decodeCommand_isCommand b)] at h
  cases h
  exact runCommand_only _ _ _

theorem cmdStep_only (s : State) : OnlyHostSide s (cmdStep s) := by
  unfold cmdStep
  split
  · unfold cmdStart
    split <;> rfl
  · rfl
  · rfl
  · rfl
  · rename_i m ms l _
    have h := access_only m (l, s)
    generalize (access m (l, s)).2 = u at h
    rw [h]
    rfl

theorem cmdRun_only {s t : State} (h : cmdRun s = .next t) : OnlyHostSide s t := by
  unfold cmdRun at h
  split at h
  · rw [exec_decodeCommand_only h]
    rfl
  · cases h
    rfl

theorem pageStep_only {s t : State} (h : pageStep s = .next t) : OnlyHostSide s t := by
  unfold pageStep at h
  split at h <;> cases h <;> rfl

theorem mirrorStep_only (s : State) : OnlyHostSide s (mirrorStep s) := by
  unfold mirrorStep mirrorMove
  split
  · split <;> rfl
  · rfl

theorem hostEntry_only (n : Nat) (v : Byte) (s : State) : OnlyHostSide s (hostEntry n v s) := by
  unfold hostEntry
  split
  · rfl
  split
  · rfl
  split
  · rfl
  split <;> rfl

/-- A move that answers next is a step of SYNC, SYNC_IRQ, DATA, LUTP or TG, or leaves their state alone. -/
theorem runMove_cases {m : Move} {s t : State} (h : runMove m s = .next t) :
    (m = .sync ∧ t = syncStep s) ∨ (m = .syncIrq ∧ t = syncIrqStep s) ∨ (m = .data ∧ t = dataStep s) ∨
      (m = .lutp ∧ t = lutpStep s) ∨ (m = .tg ∧ tgStep s = .next t) ∨ OnlyHostSide s t := by
  cases m <;> simp only [runMove] at h
  case tg => exact .inr (.inr (.inr (.inr (.inl ⟨rfl, h⟩))))
  case sync => exact .inl ⟨rfl, by cases h; rfl⟩
  case syncIrq => exact .inr (.inl ⟨rfl, by cases h; rfl⟩)
  case data => exact .inr (.inr (.inl ⟨rfl, by cases h; rfl⟩))
  case lutp => exact .inr (.inr (.inr (.inl ⟨rfl, by cases h; rfl⟩)))
  all_goals refine .inr (.inr (.inr (.inr (.inr ?_))))
  case pageSwitch => exact pageStep_only h
  case cmdRun => exact cmdRun_only h
  case hostEntry => cases h; exact hostEntry_only _ _ s
  case hostFormat => cases h
  case mirror => cases h; exact mirrorStep_only s
  case cmdStep => cases h; exact cmdStep_only s
  all_goals cases h; rfl

/-- A TG step that answers next fetched a word, or executed a pulse with the fields of the descriptor it stands at; bit 11
says whether it also signalled data start. -/
theorem tgStep_cases {s t : State} (h : tgStep s = .next t) :
    (s.tg.word = none ∧ t = tgFetch s) ∨
      ∃ w d, s.tg.word = some w ∧ d = tgDescriptor s.tg.half w ∧
        ((d.getLsbD 11 = false ∧ t = nextHalf (drivePulse (d.extractLsb' 10 1) (d.extractLsb' 0 10) s)) ∨
          (d.getLsbD 11 = true ∧
            t = nextHalf (signalDataStart (drivePulse (d.extractLsb' 10 1) (d.extractLsb' 0 10) s)))) := by
  unfold tgStep at h
  split at h
  · cases h
    exact .inl ⟨‹_›, rfl⟩
  · rename_i w hw
    refine .inr ⟨w, _, hw, rfl, ?_⟩
    split at h
    · rename_i i hi
      generalize tgDescriptor s.tg.half w = d at hi
      have bit11 : ∀ x : Descriptor, (x &&& 0xF800#16).getLsbD 11 = x.getLsbD 11 := fun x => by simp
      unfold decodeDescriptor at hi
      split at hi
      · rename_i hd
        cases hi
        cases h
        exact .inl ⟨by rw [← bit11, hd]; rfl, rfl⟩
      · split at hi
        · rename_i hd
          cases hi
          cases h
          exact .inr ⟨by rw [← bit11, hd]; rfl, rfl⟩
        · cases hi
    · cases h

end Sys2Proof.Machine
end

