-- ==== Sys2Proof/Laws/Video.lean ====
section
/-! SUPPORT. Laws of the line buffers. -/

namespace Sys2Proof.Machine

/-- A byte of a line buffer after a write: the byte written there, every other byte of both buffers as before. -/
theorem memRead_lineWrite (v : Video) (b b' : BitVec 1) (k a : Nat) (c : Byte) :
    memRead (lineBuffer (lineWrite v b k c) b') a = if b' = b ∧ a = k then c else memRead (lineBuffer v b') a := by
  have two : ∀ r : BitVec 1, r = 0#1 ∨ r = 1#1 := by decide
  rcases two b with rfl | rfl <;> rcases two b' with rfl | rfl <;> simp [lineBuffer, lineWrite]

/-- A write to a line buffer changes only the line buffers. -/
theorem lineWrite_only (v : Video) (b : BitVec 1) (k : Nat) (c : Byte) :
    lineWrite v b k c = { v with lb0 := (lineWrite v b k c).lb0, lb1 := (lineWrite v b k c).lb1 } := by
  unfold lineWrite
  split <;> rfl

/-- A write inside a line buffer keeps the canonical form of both. -/
theorem lineWrite_wf {v : Video} (b : BitVec 1) {k : Nat} (c : Byte) (hk : k < lbBytes)
    (h0 : Memory.wf lbBytes v.lb0 = true) (h1 : Memory.wf lbBytes v.lb1 = true) :
    Memory.wf lbBytes (lineWrite v b k c).lb0 = true ∧ Memory.wf lbBytes (lineWrite v b k c).lb1 = true := by
  unfold lineWrite
  split
  · exact ⟨memWrite_wf c hk h0, h1⟩
  · exact ⟨h0, memWrite_wf c hk h1⟩

end Sys2Proof.Machine
end

