-- ==== Sys2Proof/Tests/Slice0.lean ====
section
/-! SUPPORT. The tests: WellFormed, decoding, the vectors V16 to V99 of 95_test_vectors.md (expected values are the
spec's), and a witness for every statement that has hypotheses. -/

namespace Sys2Proof.Tests

open Sys2Proof Sys2Proof.Machine

/-! ### The state the tests start from -/

/-- The scan format of V16. -/
def v16Format : ScanFormat := [{ words := [0x0E000060], count := 8 }, { words := [0x06000060], count := 1 }]

/-- Its sequence. -/
def v16Words : List Word :=
  [0x0E000060, 0x0E000060, 0x0E000060, 0x0E000060, 0x0E000060, 0x0E000060, 0x0E000060, 0x0E000060, 0x06000060]

/-- The spec's defaults, V16's format, a bias of 3, depth 1, TEST_LUT and TEST_FONT's glyph 'A', GDP_BASE 0x70, PAGE_REG
0x60. -/
def testParams : Params where
  format := .vga
  scanFormat := v16Format
  period := none
  durationBias := 3
  fifoDepth := 1
  colorUnset := 0x00
  colorSet := 0xFF
  font := List.replicate 165 0x00 ++ [0x03, 0x01, 0x00, 0x00, 0x80]
  skew := []
  cmd7Ctrl1 := 0x00
  cmd7Ctrl2 := 0x00
  cmd7Csize := 0x11
  gdpBase := 0x70
  pageReg := 0x60
  busyMask := 0x04
  hReplicate := 1
  initDisplayPage := 0
  initDrawPage := 1
  regfileSize := 128

/-- TEST_FONT, as bytes 5*g + c: glyphs 0x21, 0x22 and 96. -/
def testFont : Memory :=
  [(165, 0x03), (166, 0x01), (169, 0x80), (170, 0xFF), (480, 0xFF), (481, 0xFF), (482, 0xFF), (483, 0xFF), (484, 0xFF)]

/-- Registers with STATUS 0x06 (busy and vblank), the given CTRL1, CTRL2, CSIZE, DELTAX, DELTAY, X and Y. -/
def regs (ctrl1 ctrl2 csize deltax deltay : Byte) (x y : BitVec 16) : Gdp where
  status := 0x06
  ctrl1 := ctrl1
  ctrl2 := ctrl2
  csize := csize
  deltax := deltax
  deltay := deltay
  xmsb := x.extractLsb' 8 8
  xlsb := x.extractLsb' 0 8
  ymsb := y.extractLsb' 8 8
  ylsb := y.extractLsb' 0 8

/-- A booted state with the given registers, draw page 0, an empty framebuffer, the sequence of V16 and nothing moved. -/
def base (g : Gdp) : State :=
  { State.reset with
    par := testParams
    booted := true
    gdp := g
    pagesel := 0
    sync := { seq := v16Words, seqLen := 9, idx := 0, running := true, irqPending := false }
    tables := { lutUnset := 0x00, lutSet := 0xFF, font := testFont } }

/-- The state of most tests: drawing, no skew, scale 1, cursor (0, 0). -/
def start : State := base (regs 0x03 0x00 0x11 0 0 0 0)

/-- The state an outcome answers; the start where it answers none. -/
def after (o : Host.Outcome State Fault Refusal) : State :=
  match o with
  | .next t => t
  | .fault _ => start
  | .refused _ => start

/-- The outcome is a next state. -/
def isNext (o : Host.Outcome State Fault Refusal) : Bool :=
  match o with
  | .next _ => true
  | .fault _ => false
  | .refused _ => false

/-- The words of the draw page's framebuffer a state holds at the given places. -/
def wordsAt (s : State) (ws : List Nat) : List Word := ws.map (fbLoad s)

/-- The set pixels of page 0 among the rows y and columns x given. -/
def setPixels (s : State) (x0 nx y0 ny : Nat) : List (Nat × Nat) :=
  (List.range nx).flatMap fun i => (List.range ny).filterMap fun j =>
    if pixel s.fb 0 (BitVec.ofNat 9 (x0 + i)) (BitVec.ofNat 8 (y0 + j)) then some (x0 + i, y0 + j) else none

/-! ### WellFormed: what each check refuses -/

/-- R111: a CHAR row holds only the codes of its own range. -/
theorem test_wf_char20_below : (Instr.char20 0x1F).wf = false := by decide
theorem test_wf_char20_above : (Instr.char20 0x40).wf = false := by decide
theorem test_wf_char40_below : (Instr.char40 0x3F).wf = false := by decide
theorem test_wf_char40_above : (Instr.char40 0x80).wf = false := by decide
theorem test_wf_accepts :
    (Instr.char20 0x20).wf = true ∧ (Instr.char20 0x3F).wf = true ∧ (Instr.char40 0x40).wf = true ∧
      (Instr.char40 0x7F).wf = true ∧ (Instr.svec 3 3 1 1 1).wf = true := by
  decide

/-- V17, R152: the five checks of a scan format, in its order, and a format that passes them. -/
theorem test_format_blocks :
    formatError { testParams with scanFormat := List.replicate 5 { words := [0x60], count := 1 } } = some .tooManyBlocks := by
  decide
theorem test_format_block_length :
    formatError { testParams with scanFormat := [{ words := [0x60, 0x60, 0x60], count := 1 }] } = some .blockLength := by
  decide
theorem test_format_empty :
    formatError { testParams with scanFormat := [{ words := [0x60], count := 0 }] } = some .sequenceLength := by
  decide
theorem test_format_too_long :
    formatError { testParams with scanFormat := [{ words := [0x60], count := 4097 }] } = some .sequenceLength := by
  decide
theorem test_format_reserved :
    formatError { testParams with scanFormat := [{ words := [0x1060], count := 1 }] } = some .reservedBits := by
  decide
/-- Nine words of 96 + 512 and twice the bias 3 are 5526 cycles. -/
theorem test_format_period :
    formatError { testParams with period := some 5527 } = some .period ∧
      formatError { testParams with period := some 5526 } = none := by
  decide
theorem test_format_accepts : formatError testParams = none := by decide
theorem test_format_accepts_empty_block :
    formatError { testParams with scanFormat := [{ words := [0x60], count := 0 }, { words := [0x60], count := 4096 }] } = none := by
  decide

/-- R10, R11: the ranges of the parameters. -/
theorem test_params_wf : testParams.wf = true := by decide
theorem test_params_depth : ({ testParams with fifoDepth := 0 } : Params).wf = false := by decide
theorem test_params_busy : ({ testParams with busyMask := 0x06 } : Params).wf = false := by decide
theorem test_params_regfile_low : ({ testParams with regfileSize := 127 } : Params).wf = false := by decide
/-- H_REPLICATE of the scaled 1920x1080 format is 3 (R11). -/
theorem test_params_replicate :
    ({ testParams with format := .scaledHd } : Params).wf = false ∧
      ({ testParams with format := .scaledHd, hReplicate := 3 } : Params).wf = true := by
  decide
theorem test_params_regfile_high : ({ testParams with regfileSize := 257 } : Params).wf = false := by decide

/-! ### Decoding: words written out from 30_encoding.md and opcode_table.json -/

theorem test_decode_low :
    decodeCommand 0b00000000 = .pen ∧ decodeCommand 0b00000001 = .eraser ∧ decodeCommand 0b00000010 = .pendown ∧
      decodeCommand 0b00000011 = .penup ∧ decodeCommand 0b00000100 = .cls ∧ decodeCommand 0b00000101 = .xyrst ∧
      decodeCommand 0b00000110 = .clsxy ∧ decodeCommand 0b00000111 = .reset ∧ decodeCommand 0b00001010 = .cursor := by
  decide
theorem test_decode_nop :
    decodeCommand 0b00001000 = .nop08 0 ∧ decodeCommand 0b00001001 = .nop08 1 ∧ decodeCommand 0b00001011 = .nop0B ∧
      decodeCommand 0b00001100 = .nop0C 0 ∧ decodeCommand 0b00001110 = .nop0C 2 := by
  decide
/-- SY is bit 2, SX bit 1, A bit 0 (R111). -/
theorem test_decode_vec :
    decodeCommand 0b00010100 = .vec 1 0 0 ∧ decodeCommand 0b00010010 = .vec 0 1 0 ∧ decodeCommand 0b00010001 = .vec 0 0 1 ∧
      decodeCommand 0b00011100 = .vecEq 1 0 0 ∧ decodeCommand 0b00011011 = .vecEq 0 1 1 := by
  decide
theorem test_decode_char :
    decodeCommand 0b00111111 = .char20 0x3F ∧ decodeCommand 0b01000000 = .char40 0x40 ∧ decodeCommand 0b01000001 = .char40 0x41 := by
  decide
/-- DX is bits 6:5, DY bits 4:3 (R111). -/
theorem test_decode_svec :
    decodeCommand 0b11000000 = .svec 2 0 0 0 0 ∧ decodeCommand 0b10010000 = .svec 0 2 0 0 0 ∧
      decodeCommand 0b10111100 = .svec 1 3 1 0 0 ∧ decodeCommand 0b11100110 = .svec 3 0 1 1 0 := by
  decide
/-- V19a. -/
theorem test_decode_descriptor :
    decodeDescriptor 0x0000 = .ok (.pulse 0 0) ∧ decodeDescriptor 0x07FF = .ok (.pulse 1 1023) ∧
      decodeDescriptor 0x0C60 = .ok (.pulseDs 1 96) ∧ decodeDescriptor 0x1060 = .error .reservedDescriptor := by
  decide
/-- V91, V92. -/
theorem test_decode_page : decodePage 0b01000000 = .page 1 0 0 ∧ decodePage 0b11100101 = .page 3 2 5 := by decide
/-- A table word: one byte a command, two bytes a descriptor, the first the low one; a reserved descriptor and any other
length none. -/
theorem test_table_word :
    decodeTableWord 8 0x41 = some (.char40 0x41) ∧ decodeTableWord 16 0x0C60 = some (.pulseDs 1 96) ∧
      decodeTableWord 16 0x1060 = none ∧ decodeTableWord 24 0 = none := by
  decide
theorem test_encode_svec : encode (.svec 3 1 0 0 1) = .command 0xE9 := by decide

/-! ### Low commands (V57 to V57h, V98) -/

/-- V57a; STATUS 0x06 leaves 0x02. -/
theorem test_pen :
    (after (exec .pen (base (regs 0xF0 0 0 0 0 0 0)))).gdp = { regs 0xF2 0 0 0 0 0 0 with status := 0x02 } := by decide
/-- V57b. -/
theorem test_eraser :
    (after (exec .eraser (base (regs 0xF3 0 0 0 0 0 0)))).gdp = { regs 0xF1 0 0 0 0 0 0 with status := 0x02 } := by decide
/-- V57c. -/
theorem test_pendown :
    (after (exec .pendown (base (regs 0x00 0 0 0 0 0 0)))).gdp = { regs 0x01 0 0 0 0 0 0 with status := 0x02 } := by decide
/-- V57d. -/
theorem test_penup :
    (after (exec .penup (base (regs 0xFF 0 0 0 0 0 0)))).gdp = { regs 0xFE 0 0 0 0 0 0 with status := 0x02 } := by decide
/-- V57f. -/
theorem test_xyrst :
    (after (exec .xyrst (base (regs 0x03 0 0 1 2 300 7)))).gdp = { regs 0x03 0 0 1 2 0 0 with status := 0x02 } := by decide
/-- V57h. -/
theorem test_nop :
    after (exec (decodeCommand 0x0E) (base (regs 0x03 4 5 1 2 300 7))) =
      base { regs 0x03 4 5 1 2 300 7 with status := 0x02 } := by
  decide +kernel

/-- A state with a byte set on each page, the first byte and the last of page 1 among them. -/
def inked : State := (base (regs 0x03 0x0C 0x22 0 0 300 9)).withFb
  [(16383, 0x11), (16384, 0x22), (20000, 0x33), (32767, 0x44), (32768, 0x55), (65535, 0x66)]

/-- A clear command's accesses before its clear, its clear, and its completion, in the state `s`. -/
def cleared (pre : List Micro) (s : State) : State :=
  (accesses (completion s.par) (accesses clearPage (accesses pre (Latch.empty, s)))).2

theorem after_clear_commands (s : State) :
    after (exec .cls s) = cleared [] s ∧ after (exec .clsxy s) = cleared zeroCursor s ∧
      after (exec .reset s) =
        cleared ([.put .ctrl1 s.par.cmd7Ctrl1, .put .ctrl2 s.par.cmd7Ctrl2, .put .csize s.par.cmd7Csize] ++ zeroCursor) s := by
  refine ⟨?_, ?_, ?_⟩ <;>
    simp only [exec, execCls, execClsxy, execReset, after, runCommand, clsMicros, clsxyMicros, resetMicros, readOperands,
      List.foldl_nil, accesses_append, accesses_nil, cleared]

theorem cleared_fb (pre : List Micro) (s : State) (a : Nat) :
    memRead (cleared pre s).fb a =
      if a / 16384 = (drawPage (accesses pre (Latch.empty, s)).2).toNat then 0
      else memRead (accesses pre (Latch.empty, s)).2.fb a := by
  rw [← (accesses_clearPage (accesses pre (Latch.empty, s))).2 a]
  unfold cleared
  generalize accesses clearPage _ = c
  rfl

theorem completion_gdp (p : Params) {c d : Latch × State} (h : d.2 = c.2.withFb d.2.fb) :
    (accesses (completion p) d).2.gdp = (clearSetBits c.2 .status p.busyMask 0).gdp := by
  show (clearSetBits d.2 .status p.busyMask 0).gdp = _
  rw [h]
  rfl

theorem cleared_gdp (pre : List Micro) (s : State) :
    (cleared pre s).gdp = (clearSetBits (accesses pre (Latch.empty, s)).2 .status s.par.busyMask 0).gdp :=
  completion_gdp s.par (accesses_clearPage (accesses pre (Latch.empty, s))).1

/-- V57e: page 1 cleared, pages 0, 2 and 3 unchanged. -/
theorem test_cls :
    [16383, 16384, 20000, 32767, 32768, 65535].map (memRead (after (exec .cls (inked.withPagesel 0x10))).fb) =
      [0x11, 0x00, 0x00, 0x00, 0x55, 0x66] := by
  simp only [(after_clear_commands _).1, List.map_cons, List.map_nil, cleared_fb]
  decide
/-- V57g: the registers, and the draw page 3 cleared. -/
theorem test_clsxy :
    (after (exec .clsxy (inked.withPagesel 0x30))).gdp = { regs 0x03 0x0C 0x22 0 0 0 0 with status := 0x02 } ∧
      memRead (after (exec .clsxy (inked.withPagesel 0x30))).fb 65535 = 0 := by
  simp only [(after_clear_commands _).2.1, cleared_fb, cleared_gdp]
  decide
/-- V57: the registers, and the draw page 0 cleared. -/
theorem test_reset :
    (after (exec .reset inked)).gdp = { regs 0x00 0x00 0x11 0 0 0 0 with status := 0x02 } ∧
      memRead (after (exec .reset inked)).fb 16383 = 0 := by
  simp only [(after_clear_commands _).2.2, cleared_fb, cleared_gdp]
  decide

/-! ### Plots (V35 to V39f) -/

/-- The framebuffer word `w` after a plot of (x, y) on page `p` in the mode of `ctrl1`, from a word `v` there. -/
def plotted (ctrl1 : Byte) (p : Byte) (x y : Int) (w : Nat) (v : Word) : Word :=
  fbLoad (accesses (plotMicros (x, y))
    (Latch.empty, ((base (regs ctrl1 0 0 0 0 0 0)).withPagesel (p.setWidth 32)).withFb (wordWrite [] w v))).2 w

/-- V35 to V39a. -/
theorem test_plot_words :
    plotted 0x03 0x00 0 255 0 0 = 0x80000000 ∧ plotted 0x03 0x00 511 255 15 0 = 0x00000001 ∧
      plotted 0x03 0x00 0 0 4080 0 = 0x80000000 ∧ plotted 0x03 0x00 511 0 4095 0 = 0x00000001 ∧
      plotted 0x03 0x20 100 100 10675 0 = 0x08000000 ∧ plotted 0x03 0x00 33 254 17 0 = 0x40000000 := by
  decide +kernel
/-- V39b to V39e. -/
theorem test_plot_modes :
    plotted 0x01 0x00 100 100 2483 0xFFFFFFFF = 0xF7FFFFFF ∧ plotted 0xFD 0x00 100 100 2483 0xFFFFFFFF = 0xF7FFFFFF ∧
      plotted 0xFF 0x00 100 100 2483 0 = 0x08000000 ∧ plotted 0x00 0x00 100 100 2483 0x12345678 = 0x12345678 ∧
      plotted 0x02 0x00 100 100 2483 0x12345678 = 0x12345678 := by
  decide +kernel
/-- V39f. -/
theorem test_plot_off_screen :
    plotMicros (512, 0) = [] ∧ plotMicros (0, 256) = [] ∧ plotMicros (-1, 5) = [] ∧ plotMicros (5, -1) = [] := by
  decide

/-! ### Vectors (V40 to V56j) -/

/-- The points and the cursor of a vector command byte from given magnitudes and cursor. -/
def vectorOf (b deltax deltay : Byte) (x y : BitVec 16) : List (Nat × Nat) × Nat × Nat :=
  let t := after (exec (decodeCommand b) (base (regs 0x03 0 0x11 deltax deltay x y)))
  (setPixels t 0 22 0 26, (cursorX t.gdp).toNat, (cursorY t.gdp).toNat)

/-- V42, V45. -/
theorem test_vec_slope : vectorOf 0x11 4 1 0 0 = ([(0, 0), (1, 0), (2, 0), (3, 1), (4, 1)], 4, 1) := by decide +kernel
theorem test_vec_left : vectorOf 0x13 5 2 10 10 = ([(5, 12), (6, 12), (7, 11), (8, 11), (9, 10), (10, 10)], 5, 12) := by
  decide +kernel
/-- V51, V53. -/
theorem test_vecEq_diagonal :
    vectorOf 0x19 3 5 10 10 = ([(10, 10), (11, 11), (12, 12), (13, 13), (14, 14), (15, 15)], 15, 15) := by
  decide +kernel
theorem test_vecEq_axis :
    vectorOf 0x1E 3 5 10 10 = ([(5, 10), (6, 10), (7, 10), (8, 10), (9, 10), (10, 10)], 5, 10) := by
  decide +kernel
/-- V56a, V56i. -/
theorem test_svec : vectorOf 0xE9 9 9 0 0 = ([(0, 0), (1, 0), (2, 1), (3, 1)], 3, 1) := by decide +kernel
theorem test_svec_off_screen : vectorOf 0xE7 9 9 2 2 = ([(0, 2), (1, 2), (2, 2)], 65535, 2) := by decide +kernel
/-- V43, V46: the steps with y the major axis. -/
theorem test_y_major :
    linePoints 0 0 1 4 1 1 = [(0, 0), (0, 1), (0, 2), (1, 3), (1, 4)] ∧
      linePoints 10 10 2 5 1 (-1) = [(10, 10), (10, 9), (11, 8), (11, 7), (12, 6), (12, 5)] := by
  decide +kernel

/-! ### Characters (V60 to V72) -/

/-- The pixels and the cursor of a character command byte, from (10, 20). -/
def characterOf (b ctrl1 ctrl2 csize : Byte) : List (Nat × Nat) × Nat × Nat :=
  let t := after (exec (decodeCommand b) (base (regs ctrl1 ctrl2 csize 0 0 10 20)))
  (setPixels t 8 16 18 16, (cursorX t.gdp).toNat, (cursorY t.gdp).toNat)

/-- V61. -/
theorem test_char40_scaled :
    characterOf 0x41 0x03 0x00 0x21 =
      ([(10, 20), (10, 21), (11, 20), (11, 21), (12, 20), (13, 20), (18, 27), (19, 27)], 22, 20) := by
  decide +kernel
/-- V65: skewed and vertical. -/
theorem test_char40_vertical_skewed :
    characterOf 0x41 0x03 0x0C 0x11 = ([(10, 20), (11, 20), (11, 21), (21, 24)], 10, 26) := by
  decide +kernel
/-- A space (V11) plots nothing and advances. -/
theorem test_char20_space : characterOf 0x20 0x03 0x00 0x11 = ([], 16, 20) := by decide +kernel
/-- V67. -/
theorem test_char_pen_up : characterOf 0x41 0x02 0x00 0x11 = ([], 16, 20) := by decide +kernel
/-- V72: the 5 by 8 block of FONT[96]. -/
theorem test_cursor :
    (characterOf 0x0A 0x03 0x00 0x11).1.length = 40 ∧ (characterOf 0x0A 0x03 0x00 0x11).2 = (16, 20) := by
  decide +kernel
/-- V66: scale 0 is 16, so the advance is 96. -/
theorem test_scale_zero : scaleX 0x00 = 16 ∧ scaleY 0x00 = 16 ∧ advanceMicros (regs 0x03 0x00 0x00 0 0 0 0) = putX 96 := by
  decide +kernel

/-! ### The sequencer (V16 to V19c) -/

/-- V16. -/
theorem test_build : flatWords v16Format = v16Words ∧ (build v16Format start).sync.seqLen = 9 := by decide
/-- The boot of a well-formed launch leaves the channel running and the draw page of the parameters. -/
theorem test_boot :
    (after (step { State.reset with par := testParams })).sync =
        { seq := v16Words, seqLen := 9, idx := 0, running := true, irqPending := false } ∧
      drawPage (after (step { State.reset with par := testParams })) = 1 := by
  decide +kernel

/-- All words moved but the last (V18). -/
def lastWord : State := start.withSync { start.sync with idx := 8 }

/-- V18. -/
theorem test_sync_last :
    (syncStep lastWord).tg.fifo = [0x06000060] ∧
      (syncStep lastWord).sync = { seq := v16Words, seqLen := 9, idx := 9, running := false, irqPending := true } := by
  decide
theorem test_sync_full : syncStep (syncStep start) = syncStep start := by decide +kernel

/-- V19: TG has the word 0x0E000060. -/
def hasWord : State := start.withTg { start.tg with word := some 0x0E000060 }

theorem test_pulse :
    (after (tgStep hasWord)).tg = { fifo := [], word := some 0x0E000060, half := 1, level := 0 } ∧
      (after (tgStep hasWord)).history = [.syncPulse 0 99] := by
  decide
theorem test_pulseDs :
    (after (tgStep (after (tgStep hasWord)))).tg = { fifo := [], word := none, half := 1, level := 1 } ∧
      (after (tgStep (after (tgStep hasWord)))).history = [.syncPulse 0 99, .syncPulse 1 515, .lineActive] ∧
      (after (tgStep (after (tgStep hasWord)))).video.lineActivePending = 1 := by
  decide
theorem test_fetch :
    (after (tgStep (syncStep start))).tg = { fifo := [], word := some 0x0E000060, half := 0, level := 0 } := by
  decide

/-- The pass is over and its completion pending, LineCounter 7 (V19b). -/
def passDone : State :=
  (start.withSync { start.sync with idx := 9, running := false, irqPending := true }).withVideo
    { start.video with lineCounter := 7, lineActivePending := 2 }

/-- V19b. -/
theorem test_sync_irq :
    (syncIrqStep passDone).sync = { seq := v16Words, seqLen := 9, idx := 0, running := true, irqPending := false } ∧
      (syncIrqStep passDone).video = { passDone.video with lineCounter := 0, frameComplete := true } ∧
      (syncIrqStep passDone).history = [.frameSync] := by
  decide
/-- V19c: TG has no step. -/
theorem test_starved : after (tgStep passDone) = passDone := by decide +kernel

/-! ### The data channel and the lookup (V20 to V34) -/

/-- A waiting line with LineCounter `l` and display page `p`; page 1 is the draw page. -/
def waiting (l : BitVec 10) (p : BitVec 2) : State :=
  (start.withVideo { start.video with lineActivePending := 1, lineCounter := l, frameComplete := true }).withPagesel
    (initPagesel p 1)

/-- V23, V26: buffer 1 out, LB[0] refilled from row 2 of page 2, from row 0 of page 3. -/
theorem test_data_refill :
    (dataStep (waiting 4 2)).refill = { active := true, buf := 0, src := 8224, k := 0, word := 0 } ∧
      (dataStep (waiting 4 2)).video.outSel = 1 ∧ (dataStep (waiting 4 2)).video.lineCounter = 5 ∧
      (dataStep (waiting 1020 3)).refill.src = 12288 ∧ (dataStep (waiting 1020 3)).video.lineCounter = 1021 := by
  decide +kernel
/-- V27. -/
theorem test_data_wraps :
    (dataStep (waiting 1023 0)).refill.active = false ∧ (dataStep (waiting 1023 0)).video.lineCounter = 0 ∧
      (dataStep (waiting 1023 0)).video.frameComplete = false := by
  decide +kernel

/-- A refill of LB[1] in progress at byte `k` from FB word 16. -/
def refilling (s : State) (k : Nat) : State :=
  s.withRefill { active := true, buf := 1, src := 16, k := k, word := 0x80000001 }

/-- V28. -/
theorem test_data_hold :
    dataEnabled (refilling (waiting 5 0) 3) = false ∧ dataEnabled (refilling (waiting 4 0) 3) = false ∧
      dataEnabled (refilling (waiting 8 0) 3) = false ∧ dataEnabled (refilling (waiting 1 0) 3) = true := by
  decide
/-- V33, V34: bit 30 of W[1] is the byte 33; the word is read at byte 32. -/
theorem test_lutp :
    (lutpStep (lutpStep (refilling (start.withFb (wordWrite [] 17 0x40000000)) 32))).video.lb1 = [(33, 0xFF)] ∧
      (lutpStep (refilling start 511)).refill.active = false ∧ (lutpStep (refilling start 511)).video.lb1 = [(511, 0xFF)] := by
  decide +kernel

/-! ### The host interface (V90 to V97) -/

/-- V92, V94. -/
theorem test_page :
    displayPage (after (exec (decodePage 0xE5) start)) = 3 ∧ drawPage (after (exec (decodePage 0xE5) start)) = 2 ∧
      displayPage (after (exec (decodePage 0x9F) start)) = 2 ∧ drawPage (after (exec (decodePage 0x9F) start)) = 1 := by
  decide

/-- frame_complete and vblank_observed as given, STATUS as given. -/
def flagged (frame seen : Bool) (status : Byte) : State :=
  ((base { regs 0 0 0 0 0 0 0 with status := status }).withVideo { start.video with frameComplete := frame }).withVblankObserved
    seen

/-- V95, V96, V97. -/
theorem test_mirror :
    mirrorStep (flagged true false 0x04) = flagged true true 0x06 ∧ mirrorStep (flagged false true 0x06) = flagged false false 0x04 ∧
      mirrorStep (flagged true true 0x04) = flagged true true 0x04 := by
  decide +kernel
/-- R300: the command register's entry, the page register's, a GDP register's, another, the last, and one past the end. -/
theorem test_host_entry :
    (hostEntry 0x70 0x11 start).cmdq = [0x11] ∧ (hostEntry 0x60 0x50 start).pageq = [0x50] ∧
      (hostEntry 0x77 0x09 start).gdp.deltay = 0x09 ∧ (hostEntry 0x74 0x09 start).otherRegs = [(0x74, 0x09)] ∧
      (hostEntry 127 0x09 start).otherRegs = [(127, 0x09)] ∧ hostEntry 128 0x09 start = start := by
  decide +kernel

/-! ### Witnesses: every statement's hypotheses, met together

A name ends in the statement it is for. Several clauses over one input have a witness each, at the ends of its range. -/

/-- A well-formed instruction with an operand at each end of its range. -/
theorem witness_DecodeOfEncodeIsTheInstruction :
    (Instr.char20 0x3F).wf = true ∧ (Instr.char40 0x40).wf = true ∧ (Instr.pulseDs 1 1023).wf = true ∧
      (Instr.page 3 3 15).wf = true ∧ Instr.pen.wf = true := by
  decide

/-- A word of each kind that decodes. -/
theorem witness_EncodeOfDecodeIsTheWord :
    decode (.command 0xFF) = .ok (.svec 3 3 1 1 1) ∧ decode (.descriptor 0x0FFF) = .ok (.pulseDs 1 1023) ∧
      decode (.pageByte 0xFF) = .ok (.page 3 3 15) := by
  decide

/-- A launch before its boot with parameters `p`. -/
def unbooted (p : Params) : State := { State.reset with par := p }

/-- The parameters with a reserved bit in the second descriptor of a word. -/
def reservedFormat : Params := { testParams with scanFormat := [{ words := [0x10000060], count := 1 }] }

theorem witness_DescriptorsDecodeByTheirTopBits :
    (unbooted reservedFormat).booted = false ∧
      ∃ b ∈ (unbooted reservedFormat).par.scanFormat, ∃ w ∈ b.words,
        (w.extractLsb' 12 4 : BitVec 4) ≠ 0 ∨ (w.extractLsb' 28 4 : BitVec 4) ≠ 0 :=
  ⟨rfl, { words := [0x10000060], count := 1 }, by decide, 0x10000060, by decide, by decide⟩

theorem witness_BootLeavesTheStartState :
    (unbooted testParams).booted = false ∧ formatError (unbooted testParams).par = none ∧ 96 < 97 ∧ 4 < 5 := by decide

/-- The last word of the last block, an entry past the end, and a format that passes the checks. -/
theorem witness_BuildFlattensTheFormat :
    v16Format = [{ words := [0x0E000060], count := 8 }] ++ { words := [0x06000060], count := 1 } :: [] ∧ 0 < 1 ∧ 0 < 1 ∧
      formatLength v16Format ≤ 9 ∧ formatError { start.par with scanFormat := v16Format } = none := by
  decide

/-- Both sides of the equivalence occur. -/
theorem witness_IllFormedFormatsAreRefused :
    (unbooted testParams).booted = false ∧ (unbooted reservedFormat).booted = false ∧
      isNext (step (unbooted testParams)) = true ∧ isNext (step (unbooted reservedFormat)) = false := by
  decide

/-- The state of S5: nothing drawn, cursor (100, 100). -/
def sourceLine : State := base (regs 0x03 0 0x11 0x10 0x00 100 100)

theorem witness_SourceLineSetsSeventeenPixels :
    modeOf sourceLine.gdp.ctrl1 = .draw ∧ sourceLine.gdp.deltax = 0x10 ∧ sourceLine.gdp.deltay = 0x00 ∧
      cursorX sourceLine.gdp = 100 ∧ cursorY sourceLine.gdp = 100 ∧
      (∀ x y, pixel sourceLine.fb (drawPage sourceLine) x y = false) ∧ ((0x10 : Byte) = 0x11 ∨ (0x10 : Byte) = 0x10) := by
  refine ⟨by decide, rfl, rfl, by decide, by decide, fun x y => ?_, .inr rfl⟩
  show (0#8 ++ 0#8 ++ 0#8 ++ 0#8 : BitVec 32).getLsbD (pixBit x) = false
  simp

/-- Codes just outside both ends, and a byte at each end that decodes to a character. -/
theorem witness_GlyphCodesOutOfRangeAreTheSpace :
    ((0x1F : Byte).toNat < 0x20 ∨ 0x80 < (0x1F : Byte).toNat) ∧ ((0x81 : Byte).toNat < 0x20 ∨ 0x80 < (0x81 : Byte).toNat) ∧
      (decodeCommand 0x20 = .char20 0x20 ∨ decodeCommand 0x20 = .char40 0x20) ∧
      (decodeCommand 0x7F = .char20 0x7F ∨ decodeCommand 0x7F = .char40 0x7F) := by
  decide

/-- Points just outside each edge of the screen. -/
theorem witness_PlotChangesOnePixel :
    ∀ q ∈ ([(512, 0), (-1, 0), (0, 256), (0, -1)] : List Point), ¬ (0 ≤ q.1 ∧ q.1 < 512 ∧ 0 ≤ q.2 ∧ q.2 < 256) := by
  decide

theorem witness_InertModesWriteNothing : (base (regs 0x02 0 0 0 0 0 0)).gdp.ctrl1.getLsbD 0 = false := by decide

theorem witness_PixelAddressingIsABijection : pixWord 511 0 = pixWord 511 0 ∧ pixBit 511 = pixBit 511 ∧ 31 < 32 := by decide

/-- The channel stopped; TGF full; and moving, in the middle and at the last word. -/
theorem witness_SyncMovesOneWord :
    (passDone.sync.running = false) ∧ (syncStep start).par.fifoDepth ≤ (syncStep start).tg.fifo.length ∧
      (start.sync.running = true ∧ start.tg.fifo.length < start.par.fifoDepth ∧ start.sync.idx + 1 ≠ start.sync.seqLen) ∧
      (lastWord.sync.running = true ∧ lastWord.tg.fifo.length < lastWord.par.fifoDepth ∧
        lastWord.sync.idx + 1 = lastWord.sync.seqLen) := by
  decide

theorem witness_SyncIrqRestartsTheChannel : start.sync.irqPending = false ∧ passDone.sync.irqPending = true := by decide

theorem witness_TimingGeneratorFetches :
    start.tg.word = none ∧ start.tg.fifo = [] ∧ (syncStep start).tg.word = none ∧ (syncStep start).tg.fifo = 0x0E000060 :: [] := by
  decide

/-- A line that starts a refill, one served beside a refill of the other buffer, and the last count. -/
theorem witness_DataServesOneLine :
    (0 < (waiting 0 0).video.lineActivePending ∧
      ¬ ((waiting 0 0).refill.active = true ∧ ((waiting 0 0).refill.buf.toNat = 0 / 4 % 2 ∨ 0 % 4 = 0))) ∧
    (0 < (refilling (waiting 1 0) 3).video.lineActivePending ∧
      ¬ ((refilling (waiting 1 0) 3).refill.active = true ∧
        ((refilling (waiting 1 0) 3).refill.buf.toNat = 1 / 4 % 2 ∨ 1 % 4 = 0))) ∧
    ((waiting 1023 0).video.lineCounter.toNat = 1023 ∧ 0 < (waiting 1023 0).video.lineActivePending ∧
      (waiting 1023 0).refill.active = false) := by
  decide

/-- No line waiting; a refill into the buffer to be output; a line that would start another. -/
theorem witness_DataHoldsOnAnUnfinishedRefill :
    start.video.lineActivePending = 0 ∧
      ((refilling (waiting 5 0) 3).refill.active = true ∧ (refilling (waiting 5 0) 3).refill.buf.toNat = 5 / 4 % 2) ∧
      ((refilling (waiting 8 0) 3).refill.active = true ∧ 8 % 4 = 0) := by
  decide

/-- The first line and the last that starts a refill, each with an end of the range of j. -/
theorem witness_RefillFeedsTheNextRow :
    (dataEnabled (waiting 0 0) = true ∧ refillDue (waiting 0 0).video.lineCounter = true ∧ 0 < 4 ∧
      (4 : BitVec 10) = (waiting 0 0).video.lineCounter + BitVec.ofNat 10 (4 + 0)) ∧
    (dataEnabled (waiting 1020 3) = true ∧ refillDue (waiting 1020 3).video.lineCounter = true ∧ 3 < 4 ∧
      (3 : BitVec 10) = (waiting 1020 3).video.lineCounter + BitVec.ofNat 10 (4 + 3)) := by
  decide

theorem witness_LookupWritesOneByte :
    start.refill.active = false ∧ (refilling start 0).refill.active = true ∧ (refilling start 511).refill.active = true := by
  decide

theorem witness_RefillIsTheElementwiseLookup :
    (refilling start 0).refill.active = true ∧ (refilling start 0).refill.k = 0 ∧ 511 < 512 ∧
      ((0 : BitVec 1) ≠ (refilling start 0).refill.buf ∨ 512 ≤ 0) ∧ ((1 : BitVec 1) ≠ (refilling start 0).refill.buf ∨ 512 ≤ 512) := by
  decide

/-- Another framebuffer with the same row: it differs at bytes 63 and 128, just outside words 16 to 31. -/
def otherFb : Memory := [(63, 0x01), (64, 0x77), (128, 0x01)]

theorem witness_RefillReadsOnlyItsRow :
    (refilling (start.withFb [(64, 0x77)]) 511).refill.k < 512 ∧
      ∀ j, j < 16 →
        wordRead otherFb ((refilling (start.withFb [(64, 0x77)]) 511).refill.src.toNat + j) =
          wordRead (refilling (start.withFb [(64, 0x77)]) 511).fb ((refilling (start.withFb [(64, 0x77)]) 511).refill.src.toNat + j) := by
  decide

/-- A page byte waits and CMD is idle. -/
def pageWaits : State := start.withPageq [0xE5]

theorem witness_PageSwitchStoresTheByte : pageWaits.cmd = none ∧ pageWaits.pageq = 0xE5 :: [] := by decide

theorem witness_MirrorCopiesTheVblankFlag :
    ((flagged true true 0x04).cmd = none ∧ (flagged true true 0x04).video.frameComplete = (flagged true true 0x04).vblankObserved) ∧
      ((flagged true false 0x04).cmd = none ∧
        (flagged true false 0x04).video.frameComplete ≠ (flagged true false 0x04).vblankObserved) := by
  decide

/-- A command byte waits. -/
def commandWaits : State := start.withCmdq [0x04]

/-- CLS is in progress, its page read. -/
def inCommand : State := cmdStep (cmdStep commandWaits)

theorem witness_NothingOfMirrorFallsInsideACommand : ∃ j, inCommand.cmd = some j :=
  Option.ne_none_iff_exists'.mp (by decide +kernel)

/-- An index of each clause: the first and last GDP register, an entry below and one between, the last of the file, and the
first past it. -/
theorem witness_HostMovesReachTheBlock :
    (0x70 = start.par.gdpBase) ∧ (0x60 ≠ start.par.gdpBase ∧ 0x60 = start.par.pageReg) ∧
      (∀ r ∈ [Reg.ctrl1, Reg.ylsb], 0x70 + r.offset ≠ start.par.gdpBase ∧ 0x70 + r.offset ≠ start.par.pageReg ∧
        0x70 + r.offset = start.par.gdpBase + r.offset) ∧
      (128 ≠ start.par.pageReg ∧ start.par.regfileSize ≤ 128 ∧ ∀ q ∈ Reg.all, 128 ≠ start.par.gdpBase + q.offset) ∧
      (∀ n ∈ [0, 0x74, 127], n ≠ start.par.pageReg ∧ n < start.par.regfileSize ∧ ∀ q ∈ Reg.all, n ≠ start.par.gdpBase + q.offset) ∧
      Reg.ctrl1 ≠ Reg.ctrl2 := by
  decide

/-- The schedule holds a move. -/
def next (m : Move) (s : State) : State := s.withSched [m]

theorem witness_HostScriptsSetTheirRegisters : start.cmd = none ∧ start.cmdq = [] := by decide

/-- Both ends of the range. -/
theorem witness_LinetoMovesByItsDeltas :
    start.cmd = none ∧ start.cmdq = [] ∧ (-255 : Int) ≤ -255 ∧ (-255 : Int) ≤ 255 ∧ (-255 : Int) ≤ 255 ∧ (255 : Int) ≤ 255 := by
  decide

/-- R127: `lineto_rel -3, 1` is VEC 0x13 with DELTAX 3 and DELTAY 1. -/
theorem test_lineto : scriptLineto (-3) 1 = [.hostSet .deltax 3, .hostSet .deltay 1, .hostCmd 0x13] := by decide

theorem witness_FormatChangeIsRefused :
    (next (.hostFormat []) start).booted = true ∧ (next (.hostFormat []) start).sched = .hostFormat [] :: [] := by decide

/-- A state for each of the four clauses, TG at the first half and at the second. -/
theorem witness_StepRunsTheDecodedInstruction :
    ((next .cmdRun commandWaits).booted = true ∧ (next .cmdRun commandWaits).sched = .cmdRun :: [] ∧
      (next .cmdRun commandWaits).cmd = none ∧ (next .cmdRun commandWaits).cmdq = 0x04 :: []) ∧
    ((next .tg hasWord).sched = .tg :: [] ∧ (next .tg hasWord).tg.word = some 0x0E000060 ∧ (next .tg hasWord).tg.half = 0 ∧
      decodeDescriptor ((0x0E000060 : Word).extractLsb' 0 16) = .ok (.pulse 0 96)) ∧
    ((after (tgStep hasWord)).tg.half = 1 ∧ decodeDescriptor ((0x0E000060 : Word).extractLsb' 16 16) = .ok (.pulseDs 1 512)) ∧
    ((next .pageSwitch pageWaits).sched = .pageSwitch :: [] ∧ (next .pageSwitch pageWaits).cmd = none ∧
      (next .pageSwitch pageWaits).pageq = 0xE5 :: []) ∧
    start.booted = true ∧ start.sched = [] := by
  decide

theorem witness_PlacedWordRunsNext :
    decodeTableWord 8 0xFF = some (.svec 3 3 1 1 1) ∧ decodeTableWord 16 0x0FFF = some (.pulseDs 1 1023) := by decide

theorem witness_AccessByAccessIsTheWholeCommand : commandWaits.cmd = none ∧ commandWaits.cmdq = 0x04 :: [] := by decide

theorem witness_EveryCommandClearsTheBusyBits : isCommand (.nop0C 3) = true ∧ isCommand .reset = true ∧ isCommand .cursor = true := by
  decide

theorem witness_CommandsChangeOnlyRegistersAndDrawPage :
    isCommand .pen = true ∧ isCommand (.svec 3 3 1 1 1) = true ∧ isCommand (.pulse 0 0) = false := by decide

/-- The state meets the invariant: in the middle of the second pulse of the second word, TGF full, a refill in progress, a
character command reading its operands. -/
def midPass : State :=
  { refilling start 511 with
    sync := { seq := v16Words, seqLen := 9, idx := 3, running := true, irqPending := false }
    tg := { fifo := [0x0E000060], word := some 0x0E000060, half := 1, level := 0 }
    video := { start.video with lineActivePending := 1, lb1 := [(0, 0xFF), (511, 0x01)] }
    fb := [(0, 0x01), (65535, 0x80)]
    otherRegs := [(127, 0x05)]
    cmdq := [0x04]
    cmd := some (.reading (.char40 0x41) [.ylsb] Latch.empty)
    history := [.syncPulse 0 99, .syncPulse 1 515, .lineActive, .syncPulse 0 99] }

theorem midPass_memoryInv : MemoryInv midPass := by
  unfold MemoryInv
  decide

theorem midPass_sequencerInv : SequencerInv midPass := fun _ => by
  refine ⟨by decide, by decide, by decide, by decide, by decide, fun w h => ?_, fun w h => ?_, fun w h => ?_⟩
  · have : ∀ w ∈ v16Words, wordWf w = true := List.all_eq_true.mp (by decide)
    exact this w h
  · have : ∀ w ∈ [(0x0E000060 : Word)], wordWf w = true := List.all_eq_true.mp (by decide)
    exact this w h
  · cases h
    decide

theorem midPass_inv : Inv midPass :=
  ⟨midPass_memoryInv, midPass_sequencerInv, fun ms l h => by cases h⟩

/-- A plot about to write, its page read, is a state of the invariant too; and a clear. -/
def midPlot : State := midPass.withCmd (some (.doing [.plotWrite 511 0, .bits .status 0x04 0] { Latch.empty with mode := .draw }))

theorem midPlot_inv : Inv midPlot :=
  ⟨midPass_memoryInv, midPass_sequencerInv, fun ms l h => by cases h; exact ⟨.page, rfl, rfl⟩⟩

/-- A CMD step that does write. -/
theorem witness_CommandStepsStayInTheDrawPage :
    Inv midPlot ∧ commandMove .cmdStep = true ∧ runMove .cmdStep midPlot = .next (cmdStep midPlot) ∧
      (cmdStep midPlot).fb ≠ midPlot.fb :=
  ⟨midPlot_inv, rfl, rfl, by decide +kernel⟩

theorem witness_OnlyCommandsWriteTheFramebuffer :
    commandMove .lutp = false ∧ runMove .lutp midPass = .next (lutpStep midPass) ∧
      commandMove (.hostSet .ctrl1 3) = false ∧ runMove (.hostSet .ctrl1 3) midPass = .next (setReg midPass .ctrl1 3) :=
  ⟨rfl, rfl, rfl, rfl⟩

theorem witness_VideoAgentsTouchNoRegister :
    videoMove .tg = true ∧ isNext (runMove .tg midPass) = true ∧ videoMove .data = true ∧ isNext (runMove .data midPass) = true := by
  decide

/-- The boot, and a step after it. -/
theorem witness_ProgramAndParametersNeverChange :
    step (unbooted testParams) = .next (bootState (unbooted testParams)) ∧
      (next .tg midPass).booted = true ∧ isNext (step (next .tg midPass)) = true :=
  ⟨rfl, rfl, by decide⟩

/-- Both handlers pending (V99). -/
theorem witness_HandlerOrderShows :
    passDone.sync.irqPending = true ∧ 0 < passDone.video.lineActivePending ∧ passDone.refill.active = false := by decide

theorem witness_EveryStepKeepsTheInvariant : Inv (next .tg midPass) ∧ isNext (step (next .tg midPass)) = true :=
  ⟨midPass_inv, by decide⟩

/-- What is emitted, TG's second half and TGF's word make three words, the three that have been moved. -/
theorem midPass_playback : PlaybackInv midPass := fun _ => by decide

theorem witness_PlaybackIsCyclic :
    SequencerInv (next .tg midPass) ∧ PlaybackInv (next .tg midPass) ∧ isNext (step (next .tg midPass)) = true :=
  ⟨midPass_sequencerInv, midPass_playback, by decide⟩

theorem midPass_line : LineInv midPass := fun _ => by decide

theorem witness_LinesAreCountedAndNoneIsLost : LineInv (next .data midPass) ∧ isNext (step (next .data midPass)) = true :=
  ⟨midPass_line, by decide⟩

theorem witness_NothingInTheBlockStops : Inv midPass ∧ midPass.booted = true ∧ blockMove .tg = true :=
  ⟨midPass_inv, rfl, rfl⟩

/-- Each refusal occurs. -/
theorem witness_OnlyTheNamedRefusalsStopAStep :
      step (unbooted reservedFormat) = .refused (.illFormedScanFormat .reservedBits) ∧
      step (next (.hostFormat []) start) = .refused .formatChangeWhilePlaying ∧
      step (next .tg (start.withTg { start.tg with word := some 0x1060 })) = .refused .reservedDescriptor :=
  ⟨rfl, rfl, rfl⟩

end Sys2Proof.Tests
end

/-! PROOFS. The next move of a step (O46), and a command run access by access (O48). -/

namespace Sys2Proof.Machine

/-! ### The next move of a step -/

/-- A booted state with a move scheduled takes that move. -/
theorem step_scheduled {s : State} {m : Move} {ms : List Move} (hb : s.booted = true) (hs : s.sched = m :: ms) :
    step s = runMove m (s.withSched ms) := by
  simp only [step, hb, takeMove, hs]

/-- A booted state with no move scheduled takes a free one (R18). -/
theorem step_unscheduled {s : State} (hb : s.booted = true) (hs : s.sched = []) :
    step s = runMove (Config.freeMove s.tick) (s.withTick (s.tick + 1)) := by
  simp only [step, hb, takeMove, hs]

/-- An idle CMD runs the byte at the head of CMDQ (R301). -/
theorem cmdRun_idle {s : State} {b : Byte} {q : List Byte} (hc : s.cmd = none) (hq : s.cmdq = b :: q) :
    cmdRun s = exec (decodeCommand b) (s.withCmdq q) := by
  simp only [cmdRun, hc, hq]

/-- With CMD idle, MIRROR serves the byte at the head of PAGEQ (R304). -/
theorem pageStep_idle {s : State} {b : Byte} {q : List Byte} (hc : s.cmd = none) (hq : s.pageq = b :: q) :
    pageStep s = exec (decodePage b) (s.withPageq q) := by
  simp only [pageStep, hc, hq]

/-- TG executes the descriptor it stands at (R159). -/
theorem tgStep_decoded {s : State} {w : Word} {i : Instr} (hw : s.tg.word = some w)
    (hi : decodeDescriptor (tgDescriptor s.tg.half w) = .ok i) : tgStep s = exec i s := by
  simp only [tgStep, hw, hi]

/-- Settles O46: the step takes the scheduled move, and each of the three moves is its agent's step, whose rule is above. -/
theorem stepRunsTheDecodedInstruction : Obligations.StepRunsTheDecodedInstruction := by
  intro s ms hb
  refine ⟨fun b q hs hc hq => ?_, fun w i hs hw hi => ?_, fun b q hs hc hq => ?_, step_unscheduled hb⟩
  · exact (step_scheduled hb hs).trans (cmdRun_idle (s := s.withSched ms) hc hq)
  · exact (step_scheduled hb hs).trans (tgStep_decoded (s := s.withSched ms) hw hi)
  · exact (step_scheduled hb hs).trans (pageStep_idle (s := s.withSched ms) hc hq)

/-! ### What a command reads of the state besides its registers -/

/-- The accesses of a command depend on the parameters and the tables only, once its operands are read. -/
theorem commandMicros_congr (i : Instr) (g : Gdp) {s t : State} (hp : s.par = t.par) (ht : s.tables = t.tables) :
    commandMicros i g s = commandMicros i g t := by
  cases i <;>
    simp only [commandMicros, penMicros, eraserMicros, pendownMicros, penupMicros, clsMicros, xyrstMicros, clsxyMicros,
      resetMicros, nopMicros, charMicros, vecMicros, vecEqMicros, svecMicros, lineMicros, hp, ht]

theorem jobReading_congr (i : Instr) (rs : List Reg) (l : Latch) {s t : State} (hp : s.par = t.par)
    (ht : s.tables = t.tables) : jobReading i rs l s = jobReading i rs l t := by
  simp only [jobReading, commandMicros_congr i l.gdp hp ht]

/-! ### The position in a command -/

@[simp] theorem jobOf_nil (l : Latch) : jobOf [] l = none := rfl
@[simp] theorem jobOf_cons (m : Micro) (ms : List Micro) (l : Latch) :
    jobOf (m :: ms) l = some (.doing (m :: ms) l) := rfl
@[simp] theorem jobReading_nil (i : Instr) (l : Latch) (s : State) :
    jobReading i [] l s = jobOf (commandMicros i l.gdp s) l := rfl
@[simp] theorem jobReading_cons (i : Instr) (r : Reg) (rs : List Reg) (l : Latch) (s : State) :
    jobReading i (r :: rs) l s = some (.reading i (r :: rs) l) := rfl

/-! ### The command position is no part of what an access does -/

theorem State.withCmd_withCmd (s : State) (c d : Option Job) : (s.withCmd c).withCmd d = s.withCmd d := rfl

theorem State.withCmd_of_eq {s : State} {c : Option Job} (h : s.cmd = c) : s.withCmd c = s := by
  subst h
  rfl

/-- An access neither reads nor changes the command position. -/
theorem access_withCmd (m : Micro) (l : Latch) (s : State) (c : Option Job) :
    access m (l, s.withCmd c) = ((access m (l, s)).1, (access m (l, s)).2.withCmd c) := by
  obtain ⟨_, mode, _, _⟩ := l
  cases m <;> cases mode <;> rfl

theorem access_cmd (m : Micro) (c : Latch × State) : (access m c).2.cmd = c.2.cmd := by
  rw [access_only m c]

/-! ### One CMD step inside a command -/

/-- A step at a register operand reads it (R235). -/
theorem cmdStep_reading (i : Instr) (r : Reg) (rs : List Reg) (l : Latch) (s : State) :
    cmdStep (s.withCmd (some (.reading i (r :: rs) l))) = s.withCmd (jobReading i rs (latchReg s l r) s) :=
  congrArg s.withCmd (jobReading_congr i rs (latchReg s l r) rfl rfl)

/-- A step at another access makes it (R16). -/
theorem cmdStep_doing (m : Micro) (ms : List Micro) (l : Latch) (s : State) :
    cmdStep (s.withCmd (some (.doing (m :: ms) l))) = (access m (l, s)).2.withCmd (jobOf ms (access m (l, s)).1) := by
  simp only [cmdStep, State.withCmd_cmd, access_withCmd, State.withCmd_withCmd]

/-- A step of an idle CMD takes the byte at the head of CMDQ and stands at its first access (R301). -/
theorem cmdStep_idle {s : State} {b : Byte} {q : List Byte} (hc : s.cmd = none) (hq : s.cmdq = b :: q) :
    cmdStep s = (s.withCmdq q).withCmd
      (jobReading (decodeCommand b) (commandRegs (decodeCommand b)) Latch.empty (s.withCmdq q)) := by
  have hj := jobReading_congr (decodeCommand b) (commandRegs (decodeCommand b)) Latch.empty
    (s := s) (t := s.withCmdq q) rfl rfl
  simp only [cmdStep, hc, cmdStart, hq, hj]

/-! ### Runs of CMD steps inside a command -/

/-- `n` CMD steps lead from `s` to `t`, a command being in progress before each of them. -/
def RunsInside (n : Nat) (s t : State) : Prop :=
  times cmdStep n s = t ∧ ∀ k < n, (times cmdStep k s).cmd ≠ none

theorem RunsInside.zero (s : State) : RunsInside 0 s s := ⟨rfl, fun k hk => absurd hk k.not_lt_zero⟩

theorem RunsInside.step {n : Nat} {s t : State} (hc : s.cmd ≠ none) (h : RunsInside n (cmdStep s) t) :
    RunsInside (n + 1) s t := by
  obtain ⟨hend, hin⟩ := h
  refine ⟨hend, fun k hk => ?_⟩
  cases k with
  | zero => exact hc
  | succ k => exact hin k (Nat.lt_of_succ_lt_succ hk)

/-- From the accesses `ms` on, a command makes just these, one a step, and is then idle. -/
theorem runsInside_accesses (ms : List Micro) (l : Latch) (s : State) (hc : s.cmd = none) :
    RunsInside ms.length (s.withCmd (jobOf ms l)) (accesses ms (l, s)).2 := by
  induction ms generalizing l s with
  | nil =>
    rw [jobOf_nil, State.withCmd_of_eq hc]
    exact .zero s
  | cons m ms ih =>
    refine .step (Option.some_ne_none _) ?_
    rw [jobOf_cons, cmdStep_doing]
    exact ih _ _ ((access_cmd m (l, s)).trans hc)

/-- From the operands `rs` on, a command reads these one a step, then makes the accesses that follow from what it read. -/
theorem runsInside_reading (i : Instr) (rs : List Reg) (l : Latch) (s : State) (hc : s.cmd = none) :
    ∃ n, RunsInside n (s.withCmd (jobReading i rs l s))
      (accesses (commandMicros i (rs.foldl (latchReg s) l).gdp s) (rs.foldl (latchReg s) l, s)).2 := by
  induction rs generalizing l with
  | nil =>
    rw [jobReading_nil]
    exact ⟨_, runsInside_accesses (commandMicros i l.gdp s) l s hc⟩
  | cons r rs ih =>
    obtain ⟨n, hn⟩ := ih (latchReg s l r)
    refine ⟨n + 1, .step (Option.some_ne_none _) ?_⟩
    rwa [jobReading_cons, cmdStep_reading]

/-- Settles O48: the first step takes the byte; the steps after it read the operands, then make the accesses. -/
theorem accessByAccessIsTheWholeCommand : Obligations.AccessByAccessIsTheWholeCommand := by
  intro s b q hc hq
  obtain ⟨n, hend, hin⟩ :=
    runsInside_reading (decodeCommand b) (commandRegs (decodeCommand b)) Latch.empty (s.withCmdq q) hc
  rw [← cmdStep_idle hc hq] at hend hin
  refine ⟨n + 1, n.succ_pos, ?_, fun k hk hkn => ?_⟩
  · rw [exec_command (decodeCommand_isCommand b)]
    exact congrArg Host.Outcome.next hend.symm
  · obtain ⟨k, rfl⟩ := Nat.exists_eq_succ_of_ne_zero hk.ne'
    exact hin k (Nat.lt_of_succ_lt_succ hkn)

end Sys2Proof.Machine

/-! PROOFS. The state of the block: what each kind of move leaves alone (O51, O53), the host's moves (O42), reset
(O9, O55), the draw page a command keeps to (O49), and the invariant of the step (O56). -/

namespace Sys2Proof.Machine

/-! ### What each kind of move leaves alone -/

/-- Two states that differ at most in the timing generator, the data channel, the refill and the history. -/
def OnlyOutputSide (s t : State) : Prop :=
  t = { s with tg := t.tg, video := t.video, refill := t.refill, history := t.history }

/-- Two states that differ at most in the sync channel and what `OnlyOutputSide` lets differ. -/
def OnlyVideoSide (s t : State) : Prop :=
  t = { s with sync := t.sync, tg := t.tg, video := t.video, refill := t.refill, history := t.history }

/-- Two states that differ at most in the GDP registers, the vblank flag last observed and the two queues. -/
def OnlyRegsQueues (s t : State) : Prop :=
  t = { s with gdp := t.gdp, vblankObserved := t.vblankObserved, cmdq := t.cmdq, pageq := t.pageq }

theorem OnlyOutputSide.trans {s t u : State} (h : OnlyOutputSide s t) (k : OnlyOutputSide t u) :
    OnlyOutputSide s u := by
  unfold OnlyOutputSide at *
  rw [k, h]

theorem OnlyOutputSide.sync_eq {s t : State} (h : OnlyOutputSide s t) : t.sync = s.sync := by rw [h]

theorem OnlyOutputSide.onlyVideoSide {s t : State} (h : OnlyOutputSide s t) : OnlyVideoSide s t := by
  unfold OnlyVideoSide
  rw [h]

theorem syncMove_only (s : State) : OnlyVideoSide s (syncMove s) := by
  dsimp only [syncMove]
  split <;> rfl

theorem syncStep_only (s : State) : OnlyVideoSide s (syncStep s) := by
  unfold syncStep
  split
  · exact syncMove_only s
  · rfl

theorem syncIrqStep_only (s : State) : OnlyVideoSide s (syncIrqStep s) := by
  unfold syncIrqStep
  split <;> rfl

theorem dataInvoke_only (s : State) : OnlyOutputSide s (dataInvoke s) := by
  dsimp only [dataInvoke]
  split <;> rfl

theorem dataStep_only (s : State) : OnlyOutputSide s (dataStep s) := by
  unfold dataStep
  split
  · exact dataInvoke_only s
  · rfl

theorem lutpStep_only (s : State) : OnlyOutputSide s (lutpStep s) := by
  unfold lutpStep
  split <;> rfl

theorem tgFetch_only (s : State) : OnlyOutputSide s (tgFetch s) := by
  unfold tgFetch
  split <;> rfl

theorem drivePulse_only (lvl : BitVec 1) (dur : BitVec 10) (s : State) : OnlyOutputSide s (drivePulse lvl dur s) := rfl

theorem signalDataStart_only (s : State) : OnlyOutputSide s (signalDataStart s) := rfl

theorem nextHalf_only (s : State) : OnlyOutputSide s (nextHalf s) := by
  unfold nextHalf
  split <;> rfl

theorem tgStep_only {s t : State} (h : tgStep s = .next t) : OnlyOutputSide s t := by
  rcases tgStep_cases h with ⟨_, rfl⟩ | ⟨w, d, _, _, ⟨_, rfl⟩ | ⟨_, rfl⟩⟩
  · exact tgFetch_only s
  · exact (drivePulse_only _ _ s).trans (nextHalf_only _)
  · exact ((drivePulse_only _ _ s).trans (signalDataStart_only _)).trans (nextHalf_only _)

theorem mirrorStep_onlyRegsQueues (s : State) : OnlyRegsQueues s (mirrorStep s) := by
  unfold mirrorStep mirrorMove
  split
  · split <;> rfl
  · rfl

/-- A (register, data) pair reaches a queue, a GDP register or nothing, or writes its byte inside the register file. -/
theorem hostEntry_cases (n : Nat) (v : Byte) (s : State) :
    OnlyRegsQueues s (hostEntry n v s) ∨
      (n < s.par.regfileSize ∧ hostEntry n v s = s.withOtherRegs (memWrite s.otherRegs n v)) := by
  unfold hostEntry
  split
  · exact .inl rfl
  split
  · exact .inl rfl
  split
  · exact .inl rfl
  split
  · exact .inr ⟨‹_›, rfl⟩
  · exact .inl rfl

/-- A page switch outside a command writes PAGESEL; inside one it holds (R304, R307). -/
theorem pageStep_cases {s t : State} (h : pageStep s = .next t) :
    t = s ∨ (s.cmd = none ∧ t = { s with pagesel := t.pagesel, pageq := t.pageq }) := by
  unfold pageStep at h
  split at h <;> cases h
  · exact .inr ⟨‹_›, rfl⟩
  · exact .inl rfl

/-- A move that answers next is one of the sequencer and the video pipeline, one on registers and queues, a pair for the
register file, a page switch, or CMD's. -/
theorem runMove_kinds {m : Move} {s t : State} (h : runMove m s = .next t) :
    OnlyVideoSide s t ∨ OnlyRegsQueues s t ∨ (∃ n v, t = hostEntry n v s) ∨ pageStep s = .next t ∨
      (commandMove m = true ∧ (t = cmdStep s ∨ cmdRun s = .next t)) := by
  cases m <;> simp only [runMove] at h
  case tg => exact .inl (tgStep_only h).onlyVideoSide
  case pageSwitch => exact .inr (.inr (.inr (.inl h)))
  case cmdRun => exact .inr (.inr (.inr (.inr ⟨rfl, .inr h⟩)))
  case hostFormat => cases h
  all_goals cases h
  case sync => exact .inl (syncStep_only s)
  case syncIrq => exact .inl (syncIrqStep_only s)
  case data => exact .inl (dataStep_only s).onlyVideoSide
  case lutp => exact .inl (lutpStep_only s).onlyVideoSide
  case mirror => exact .inr (.inl (mirrorStep_onlyRegsQueues s))
  case cmdStep => exact .inr (.inr (.inr (.inr ⟨rfl, .inl rfl⟩)))
  case hostEntry n v => exact .inr (.inr (.inl ⟨n, v, rfl⟩))
  all_goals exact .inr (.inl rfl)

/-! ### The framebuffer -/

theorem OnlyVideoSide.fb_eq {s t : State} (h : OnlyVideoSide s t) : t.fb = s.fb := by rw [h]

theorem OnlyRegsQueues.fb_eq {s t : State} (h : OnlyRegsQueues s t) : t.fb = s.fb := by rw [h]

theorem hostEntry_fb (n : Nat) (v : Byte) (s : State) : (hostEntry n v s).fb = s.fb := by
  rcases hostEntry_cases n v s with h | ⟨_, h⟩
  · exact h.fb_eq
  · rw [h, State.withOtherRegs_fb]

theorem pageStep_fb {s t : State} (h : pageStep s = .next t) : t.fb = s.fb := by
  rcases pageStep_cases h with rfl | ⟨_, h⟩
  · rfl
  · rw [h]

/-- A move writes the framebuffer only as CMD's (R44). -/
theorem runMove_fb_cases {m : Move} {s t : State} (h : runMove m s = .next t) :
    t.fb = s.fb ∨ (commandMove m = true ∧ (t = cmdStep s ∨ cmdRun s = .next t)) := by
  rcases runMove_kinds h with h | h | ⟨n, v, rfl⟩ | h | h
  · exact .inl h.fb_eq
  · exact .inl h.fb_eq
  · exact .inl (hostEntry_fb n v s)
  · exact .inl (pageStep_fb h)
  · exact .inr h

/-- Settles O51: the kinds of move other than CMD's leave the framebuffer alone. -/
theorem onlyCommandsWriteTheFramebuffer : Obligations.OnlyCommandsWriteTheFramebuffer := by
  intro m s t hm h
  rcases runMove_fb_cases h with h | ⟨hc, _⟩
  · exact h
  · cases hm.symm.trans hc

/-! ### The parameters and the program -/

/-- `t` has the parameters of `s`, its sequence and its tables, and is booted exactly when `s` is (R60, R100). -/
structure SameProgram (s t : State) : Prop where
  par : t.par = s.par
  booted : t.booted = s.booted
  seq : t.sync.seq = s.sync.seq
  seqLen : t.sync.seqLen = s.sync.seqLen
  tables : t.tables = s.tables

theorem OnlyVideoSide.sameProgram {s t : State} (h : OnlyVideoSide s t) (hseq : t.sync.seq = s.sync.seq)
    (hlen : t.sync.seqLen = s.sync.seqLen) : SameProgram s t :=
  ⟨by rw [h], by rw [h], hseq, hlen, by rw [h]⟩

theorem OnlyOutputSide.sameProgram {s t : State} (h : OnlyOutputSide s t) : SameProgram s t :=
  h.onlyVideoSide.sameProgram (by rw [h.sync_eq]) (by rw [h.sync_eq])

theorem OnlyHostSide.sameProgram {s t : State} (h : OnlyHostSide s t) : SameProgram s t :=
  ⟨by rw [h], by rw [h], by rw [h], by rw [h], by rw [h]⟩

/-- SYNC moves one word: sync_idx advances, and at the end of the sequence the channel stops with its interrupt pending
(R156). -/
theorem syncMove_sync (s : State) :
    (syncMove s).sync =
      if s.sync.idx + 1 = s.sync.seqLen then
        { s.sync with idx := s.sync.idx + 1, running := false, irqPending := true }
      else { s.sync with idx := s.sync.idx + 1 } := by
  dsimp only [syncMove]
  split <;> rfl

theorem syncStep_sameProgram (s : State) : SameProgram s (syncStep s) := by
  have hseq : (syncStep s).sync.seq = s.sync.seq ∧ (syncStep s).sync.seqLen = s.sync.seqLen := by
    unfold syncStep
    split
    · rw [syncMove_sync]
      split <;> exact ⟨rfl, rfl⟩
    · exact ⟨rfl, rfl⟩
  exact (syncStep_only s).sameProgram hseq.1 hseq.2

theorem syncIrqStep_sameProgram (s : State) : SameProgram s (syncIrqStep s) := by
  unfold syncIrqStep
  split <;> exact ⟨rfl, rfl, rfl, rfl, rfl⟩

/-- No move changes the parameters, the sequence or the tables. -/
theorem runMove_sameProgram {m : Move} {s t : State} (h : runMove m s = .next t) : SameProgram s t := by
  rcases runMove_cases h with ⟨_, rfl⟩ | ⟨_, rfl⟩ | ⟨_, rfl⟩ | ⟨_, rfl⟩ | ⟨_, h⟩ | h
  · exact syncStep_sameProgram s
  · exact syncIrqStep_sameProgram s
  · exact (dataStep_only s).sameProgram
  · exact (lutpStep_only s).sameProgram
  · exact (tgStep_only h).sameProgram
  · exact h.sameProgram

theorem takeMove_sameProgram (s : State) : SameProgram s (takeMove s).2 := by
  rw [takeMove_only s]
  exact ⟨rfl, rfl, rfl, rfl, rfl⟩

theorem SameProgram.trans {s t u : State} (h : SameProgram s t) (k : SameProgram t u) : SameProgram s u :=
  ⟨k.par.trans h.par, k.booted.trans h.booted, k.seq.trans h.seq, k.seqLen.trans h.seqLen, k.tables.trans h.tables⟩

/-- Settles O53: the boot keeps the parameters, and every move after it the program too. -/
theorem programAndParametersNeverChange : Obligations.ProgramAndParametersNeverChange := by
  intro s t h
  rcases step_cases h with ⟨hb, _, rfl⟩ | ⟨hb, h⟩
  · exact ⟨rfl, rfl, fun hb' => by cases hb.symm.trans hb'⟩
  · have k := (takeMove_sameProgram s).trans (runMove_sameProgram h)
    exact ⟨k.par, k.booted.trans hb, fun _ => ⟨k.seq, k.seqLen, k.tables⟩⟩

/-! ### The host's moves -/

/-- A register byte written is the one byte changed (R90). -/
theorem setReg_result (s : State) (r : Reg) (v : Byte) :
    setReg s r v = { s with gdp := (setReg s r v).gdp } ∧ (setReg s r v).gdp.get r = v ∧
      ∀ q, q ≠ r → (setReg s r v).gdp.get q = s.gdp.get q :=
  ⟨rfl, Gdp.get_set_same _ _ _, fun _ hq => Gdp.get_set_ne _ _ hq⟩

theorem reg_mem_all (r : Reg) : r ∈ Reg.all := by cases r <;> decide

/-- At a GDP register's index stands that register: no two have one offset (R34). -/
theorem regAt_offset (p : Params) (r : Reg) : regAt p (p.gdpBase + r.offset) = some r := by
  cases r <;> simp [regAt, Reg.all, Reg.offset]

theorem regAt_eq_none {p : Params} {n : Nat} (h : ∀ q : Reg, n ≠ p.gdpBase + q.offset) : regAt p n = none := by
  simpa [regAt, reg_mem_all] using fun q => (h q).symm

/-! Where a (register, data) pair goes by its index (R300). -/

theorem hostEntry_command (v : Byte) (s : State) : hostEntry s.par.gdpBase v s = hostCmd v s := if_pos rfl

theorem hostEntry_page {n : Nat} {s : State} (v : Byte) (hc : n ≠ s.par.gdpBase) (hp : n = s.par.pageReg) :
    hostEntry n v s = hostPage v s := by
  rw [hostEntry, if_neg hc, if_pos hp]

theorem hostEntry_register {n : Nat} {s : State} {r : Reg} (v : Byte) (hc : n ≠ s.par.gdpBase)
    (hp : n ≠ s.par.pageReg) (hr : n = s.par.gdpBase + r.offset) : hostEntry n v s = setReg s r v := by
  rw [hostEntry, if_neg hc, if_neg hp, hr, regAt_offset]

theorem hostEntry_other {n : Nat} {s : State} (v : Byte) (hp : n ≠ s.par.pageReg)
    (hr : ∀ q : Reg, n ≠ s.par.gdpBase + q.offset) :
    hostEntry n v s = if n < s.par.regfileSize then s.withOtherRegs (memWrite s.otherRegs n v) else s := by
  have hc : n ≠ s.par.gdpBase := hr .status
  rw [hostEntry, if_neg hc, if_neg hp, regAt_eq_none hr]

/-- Settles O42: the register moves are one byte's write; a pair goes where the five rules above say. -/
theorem hostMovesReachTheBlock : Obligations.HostMovesReachTheBlock := by
  intro s r v clear set b n
  refine ⟨⟨_, rfl, setReg_result s r v⟩, ⟨_, rfl, setReg_result s r _⟩, rfl, rfl, rfl, ?_, ?_, ?_, ?_, ?_⟩
  · rintro rfl
    exact congrArg Host.Outcome.next (hostEntry_command b s)
  · exact fun hc hp => congrArg Host.Outcome.next (hostEntry_page b hc hp)
  · exact fun hc hp hr => congrArg Host.Outcome.next (hostEntry_register b hc hp hr)
  · intro hp hsize hr
    exact congrArg Host.Outcome.next ((hostEntry_other b hp hr).trans (if_neg (Nat.not_lt.mpr hsize)))
  · intro hp hsize hr
    exact ⟨_, congrArg Host.Outcome.next ((hostEntry_other b hp hr).trans (if_pos hsize)), rfl,
      fun k => memRead_memWrite s.otherRegs n k b⟩

/-! ### Reset -/

/-- The two page fields of PAGESEL at reset and after the boot (R43, R351). -/
theorem initPagesel_pages : ∀ disp draw : BitVec 2,
    (initPagesel disp draw).extractLsb' 6 2 = disp ∧ (initPagesel disp draw).extractLsb' 4 2 = draw := by decide

/-- Settles O9: each value is a field of State.reset; the pages are those of PAGESEL. -/
theorem resetHoldsTheValuesGiven : Obligations.ResetHoldsTheValuesGiven :=
  ⟨rfl, ⟨rfl, rfl, rfl⟩, ⟨rfl, rfl, rfl⟩, ⟨rfl, rfl, rfl, rfl⟩, rfl, rfl, rfl, rfl, rfl, rfl, initPagesel_pages _ _⟩

/-- Settles O55: every memory is empty, no refill and no command is in progress, and the rest is about booted states. -/
theorem resetMeetsTheInvariants : Obligations.ResetMeetsTheInvariants := by
  have hmem : MemoryInv State.reset := ⟨rfl, rfl, rfl, rfl, rfl, nofun⟩
  have hpage : DrawPageInv State.reset := nofun
  exact ⟨⟨hmem, nofun, hpage⟩, nofun, nofun⟩

/-! ### The registers a command writes -/

/-- The register an access writes, if it writes one. -/
def Micro.target : Micro → Option Reg
  | .put r _ | .bits r _ _ => some r
  | .latchPage | .clearWord _ | .plotMode | .plotPage | .plotRead _ _ | .plotWrite _ _ => none

/-- An access leaves every register but its target as it was. -/
theorem access_get {m : Micro} {q : Reg} (h : m.target ≠ some q) (c : Latch × State) :
    (access m c).2.gdp.get q = c.2.gdp.get q := by
  obtain ⟨⟨_, mode, _, _⟩, _⟩ := c
  cases m
  case put r v => exact Gdp.get_set_ne _ v fun e => h (congrArg some e.symm)
  case bits r clear set => exact Gdp.get_set_ne _ _ fun e => h (congrArg some e.symm)
  all_goals cases mode <;> rfl

theorem accesses_get {q : Reg} (ms : List Micro) :
    ∀ c : Latch × State, (∀ m ∈ ms, m.target ≠ some q) → (accesses ms c).2.gdp.get q = c.2.gdp.get q := by
  induction ms with
  | nil => exact fun _ _ => rfl
  | cons m ms ih =>
    intro c h
    obtain ⟨hm, hms⟩ := List.forall_mem_cons.mp h
    exact (ih (access m c) hms).trans (access_get hm c)

/-! ### What a command is made of -/

/-- Accesses made of whole plots, whole clears of the page, and writes of registers other than DELTAX and DELTAY. -/
inductive CommandShape : List Micro → Prop
  | nil : CommandShape []
  | plot (q : Point) : CommandShape (plotMicros q)
  | clear : CommandShape clearPage
  | write (m : Micro) (h : m.target ≠ none ∧ m.target ≠ some .deltax ∧ m.target ≠ some .deltay) : CommandShape [m]
  | append {ms ns : List Micro} (h : CommandShape ms) (k : CommandShape ns) : CommandShape (ms ++ ns)

theorem CommandShape.writes {ms : List Micro}
    (h : ∀ m ∈ ms, m.target ≠ none ∧ m.target ≠ some .deltax ∧ m.target ≠ some .deltay) : CommandShape ms := by
  induction ms with
  | nil => exact .nil
  | cons m ms ih =>
    obtain ⟨hm, hms⟩ := List.forall_mem_cons.mp h
    exact .append (.write m hm) (ih hms)

theorem commandShape_plotAll (qs : List Point) : CommandShape (plotAll qs) := by
  induction qs with
  | nil => exact .nil
  | cons q qs ih => exact .append (.plot q) ih

theorem commandShape_completion (p : Params) : CommandShape (completion p) :=
  .writes (by simp [completion, Micro.target])

theorem commandShape_putX (v : BitVec 16) : CommandShape (putX v) := .writes (by simp [putX, Micro.target])

theorem commandShape_putY (v : BitVec 16) : CommandShape (putY v) := .writes (by simp [putY, Micro.target])

theorem commandShape_zeroCursor : CommandShape zeroCursor := .append (commandShape_putX 0) (commandShape_putY 0)

theorem commandShape_advanceMicros (g : Gdp) : CommandShape (advanceMicros g) := by
  unfold advanceMicros
  split
  · exact commandShape_putY _
  · exact commandShape_putX _

theorem commandShape_charMicros (a : Byte) (g : Gdp) (s : State) : CommandShape (charMicros a g s) :=
  .append (.append (commandShape_plotAll _) (commandShape_advanceMicros g)) (commandShape_completion _)

theorem commandShape_lineMicros (sy sx a : BitVec 1) (m : Nat × Nat) (g : Gdp) (s : State) :
    CommandShape (lineMicros sy sx a m g s) :=
  .append (.append (commandShape_plotAll _) (.append (commandShape_putX _) (commandShape_putY _)))
    (commandShape_completion _)

theorem commandShape_commandMicros (i : Instr) (g : Gdp) (s : State) : CommandShape (commandMicros i g s) := by
  have hend := commandShape_completion s.par
  have hbits : ∀ clear set : Byte, CommandShape (.bits .ctrl1 clear set :: completion s.par) := fun clear set =>
    .append (ms := [.bits .ctrl1 clear set]) (.writes (by simp [Micro.target])) hend
  cases i
  case pen | eraser | pendown | penup => exact hbits _ _
  case cls => exact .append .clear hend
  case xyrst => exact .append commandShape_zeroCursor hend
  case clsxy => exact .append (.append commandShape_zeroCursor .clear) hend
  case reset =>
    exact .append (.append (.append (.writes (by simp [Micro.target])) commandShape_zeroCursor) .clear) hend
  case nop08 | nop0B | nop0C => exact hend
  case cursor | char20 | char40 => exact commandShape_charMicros _ g s
  case vec | vecEq | svec => exact commandShape_lineMicros _ _ _ _ g s
  case pulse | pulseDs | page => exact .nil

/-- A command writes neither DELTAX nor DELTAY. -/
theorem CommandShape.target_ne {ms : List Micro} (h : CommandShape ms) :
    ∀ m ∈ ms, m.target ≠ some .deltax ∧ m.target ≠ some .deltay := by
  induction h with
  | nil => simp
  | plot q =>
    unfold plotMicros
    split <;> simp [Micro.target]
  | clear => simp [clearPage, Micro.target]
  | write m h => simp [h]
  | append _ _ ih ik => exact List.forall_mem_append.mpr ⟨ih, ik⟩

/-! ### A command uses only the draw page -/

/-- Accesses that use no page known before them, so read draw_page first. -/
def ReadsPageFirst (ms : List Micro) : Prop := ∀ k, usesPageRead k ms = true

theorem usesPageRead_append {ns : List Micro} (hn : ReadsPageFirst ns) (k : PageKnown) (ms : List Micro)
    (h : usesPageRead k ms = true) : usesPageRead k (ms ++ ns) = true := by
  fun_induction usesPageRead k ms
  case case1 k => exact hn k
  all_goals simp_all [usesPageRead]

theorem usesPageRead_latchPage (k : PageKnown) (ms : List Micro) :
    usesPageRead k (.latchPage :: ms) = usesPageRead .page ms := by
  cases k <;> rfl

theorem usesPageRead_clearWords (ns : List Nat) :
    usesPageRead .page (ns.map fun w => .clearWord (BitVec.ofNat 12 w)) = true := by
  induction ns with
  | nil => rfl
  | cons n ns ih => exact ih

/-- A command's accesses use a page only after reading draw_page (R225, R294). -/
theorem CommandShape.readsPageFirst {ms : List Micro} (h : CommandShape ms) : ReadsPageFirst ms := by
  intro k
  induction h generalizing k with
  | nil => cases k <;> rfl
  | plot q =>
    unfold plotMicros
    split <;> cases k <;> rfl
  | clear =>
    rw [clearPage, usesPageRead_latchPage]
    exact usesPageRead_clearWords _
  | write m h =>
    cases m
    case put | bits => cases k <;> rfl
    all_goals exact absurd rfl h.1
  | append _ _ ih ik => exact usesPageRead_append ik k _ (ih k)

theorem access_pagesel (m : Micro) (c : Latch × State) : (access m c).2.pagesel = c.2.pagesel := by
  rw [access_only m c]

/-- What an access can do to the framebuffer: nothing, or a store to a word of the page the command holds, by a clear or by
a plot whose mode is not inert. -/
theorem access_fb_cases (m : Micro) (c : Latch × State) :
    (access m c).2.fb = c.2.fb ∨
      (∃ w v, (access m c).2.fb = wordWrite c.2.fb (fbIndex c.1.page w) v) ∧
        ((∃ n, m = .clearWord n) ∨ ∃ x y, m = .plotWrite x y ∧ c.1.mode ≠ .inert) := by
  obtain ⟨⟨_, mode, _, _⟩, _⟩ := c
  cases m
  case clearWord n => exact .inr ⟨⟨n, 0, rfl⟩, .inl ⟨n, rfl⟩⟩
  case plotWrite x y =>
    cases mode
    case inert => exact .inl rfl
    all_goals exact .inr ⟨⟨_, _, rfl⟩, .inr ⟨x, y, rfl, by simp⟩⟩
  all_goals cases mode <;> exact .inl rfl

/-- A store is made only when the page held is known to be draw_page. -/
theorem page_eq_of_store {k : PageKnown} {m : Micro} {ms : List Micro} {l : Latch} {p : BitVec 2}
    (hu : usesPageRead k (m :: ms) = true) (hk : k.holds l p)
    (hm : (∃ n, m = .clearWord n) ∨ ∃ x y, m = .plotWrite x y ∧ l.mode ≠ .inert) : l.page = p := by
  rcases hm with ⟨n, rfl⟩ | ⟨x, y, rfl, hmode⟩ <;> cases k
  case inl.page | inr.page => exact hk
  case inr.plot => exact hk.resolve_left hmode
  all_goals cases hu

/-- After an access what is known of the page still holds, and the rest uses a page only after reading it. -/
theorem usesPageRead_access {k : PageKnown} {m : Micro} {ms : List Micro} {c : Latch × State}
    (hu : usesPageRead k (m :: ms) = true) (hk : k.holds c.1 (drawPage c.2)) :
    ∃ k' : PageKnown, k'.holds (access m c).1 (drawPage c.2) ∧ usesPageRead k' ms = true := by
  obtain ⟨⟨_, mode, _, _⟩, s⟩ := c
  cases m
  case put | bits => exact ⟨k, hk, by cases k <;> exact hu⟩
  case latchPage => exact ⟨.page, rfl, (usesPageRead_latchPage k ms).symm.trans hu⟩
  case clearWord =>
    cases k
    case page => exact ⟨.page, hk, hu⟩
    all_goals cases hu
  case plotMode =>
    cases k
    case page => exact ⟨.page, hk, hu⟩
    all_goals exact ⟨.unknown, trivial, hu⟩
  case plotPage =>
    cases mode
    case inert =>
      cases k
      case page => exact ⟨.page, hk, hu⟩
      all_goals exact ⟨.plot, .inl rfl, hu⟩
    all_goals
      cases k
      case page => exact ⟨.page, rfl, hu⟩
      all_goals exact ⟨.plot, .inr rfl, hu⟩
  case plotRead | plotWrite =>
    cases k
    case unknown => cases hu
    all_goals exact ⟨_, by cases mode <;> exact hk, hu⟩

/-- A store to a word of a page leaves every byte outside the page as it was. -/
theorem memRead_wordWrite_outside {p : BitVec 2} {a : Nat} (ha : ¬ inPage p a) (m : Memory) (w : BitVec 12) (v : Word) :
    memRead (wordWrite m (fbIndex p w) v) a = memRead m a := by
  have hne : a / 4 ≠ fbIndex p w := by
    unfold inPage at ha
    unfold fbIndex
    omega
  rw [memRead_wordWrite, if_neg hne]

/-- An access of a command that knows its page changes no byte outside draw_page. -/
theorem access_outside {k : PageKnown} {m : Micro} {ms : List Micro} {c : Latch × State}
    (hu : usesPageRead k (m :: ms) = true) (hk : k.holds c.1 (drawPage c.2)) {a : Nat} (ha : ¬ inPage (drawPage c.2) a) :
    memRead (access m c).2.fb a = memRead c.2.fb a := by
  rcases access_fb_cases m c with h | ⟨⟨w, v, h⟩, hm⟩
  · rw [h]
  · rw [h, page_eq_of_store hu hk hm, memRead_wordWrite_outside ha]

theorem accesses_outside (ms : List Micro) :
    ∀ (k : PageKnown) (c : Latch × State), usesPageRead k ms = true → k.holds c.1 (drawPage c.2) →
      ∀ a, ¬ inPage (drawPage c.2) a → memRead (accesses ms c).2.fb a = memRead c.2.fb a := by
  induction ms with
  | nil => exact fun _ _ _ _ _ _ => rfl
  | cons m ms ih =>
    intro k c hu hk a ha
    obtain ⟨k', hk', hu'⟩ := usesPageRead_access hu hk
    have hpage : drawPage (access m c).2 = drawPage c.2 := congrArg (·.extractLsb' 4 2) (access_pagesel m c)
    rw [← hpage] at hk' ha
    exact (ih k' _ hu' hk' a ha).trans (access_outside hu hk (hpage ▸ ha))

/-- Settles O49: a command's accesses write neither DELTA register, and use a page only after reading draw_page. -/
theorem commandsChangeOnlyRegistersAndDrawPage : Obligations.CommandsChangeOnlyRegistersAndDrawPage := by
  intro i s hi
  have hshape := commandShape_commandMicros i (readOperands s (commandRegs i)).gdp s
  refine ⟨_, exec_command hi s, runCommand_only _ _ s, ?_, ?_, ?_⟩
  · exact accesses_get (q := .deltax) _ (_, s) fun m hm => (hshape.target_ne m hm).1
  · exact accesses_get (q := .deltay) _ (_, s) fun m hm => (hshape.target_ne m hm).2
  · exact accesses_outside _ .unknown (_, s) (hshape.readsPageFirst .unknown) trivial

/-! ### The invariant: memories -/

/-- The framebuffer of the state is canonical. -/
def FbOk (s : State) : Prop := Memory.wf fbBytes s.fb = true

/-- Both line buffers are canonical, and an active refill has a byte left to write (R55). -/
def LinesOk (s : State) : Prop :=
  Memory.wf lbBytes s.video.lb0 = true ∧ Memory.wf lbBytes s.video.lb1 = true ∧
    (s.refill.active = true → s.refill.k < 512)

/-- The register file's other entries are canonical. -/
def OtherRegsOk (s : State) : Prop := Memory.wf s.par.regfileSize s.otherRegs = true

theorem memoryInv_iff (s : State) :
    MemoryInv s ↔ FbOk s ∧ LinesOk s ∧ Memory.wf fontBytes s.tables.font = true ∧ OtherRegsOk s := by
  unfold MemoryInv FbOk LinesOk OtherRegsOk
  tauto

theorem access_fbOk (m : Micro) (c : Latch × State) (h : FbOk c.2) : FbOk (access m c).2 := by
  unfold FbOk at *
  rcases access_fb_cases m c with hfb | ⟨⟨w, v, hfb⟩, _⟩
  · rwa [hfb]
  · rw [hfb]
    refine wordWrite_wf v ?_ h
    simp only [fbIndex, fbBytes]
    omega

theorem accesses_fbOk (ms : List Micro) : ∀ c : Latch × State, FbOk c.2 → FbOk (accesses ms c).2 := by
  induction ms with
  | nil => exact fun _ h => h
  | cons m ms ih => exact fun c h => ih _ (access_fbOk m c h)

/-- CMD makes one access, or changes nothing but its queue and its position. -/
theorem cmdStep_fb_cases (s : State) : (cmdStep s).fb = s.fb ∨ ∃ m l, (cmdStep s).fb = (access m (l, s)).2.fb := by
  unfold cmdStep
  split
  · unfold cmdStart
    split <;> exact .inl rfl
  · exact .inl rfl
  · exact .inl rfl
  · exact .inl rfl
  · exact .inr ⟨_, _, rfl⟩

/-- CMD runs a whole command from idle, or holds. -/
theorem cmdRun_cases {s t : State} (h : cmdRun s = .next t) :
    t = s ∨ ∃ i q, s.cmd = none ∧ t = runCommand (commandRegs i) (commandMicros i) (s.withCmdq q) := by
  unfold cmdRun at h
  split at h
  · rename_i b q hc _
    rw [exec_command (decodeCommand_isCommand b)] at h
    cases h
    exact .inr ⟨_, q, hc, rfl⟩
  · cases h
    exact .inl rfl

theorem runMove_fbOk {m : Move} {s t : State} (h : runMove m s = .next t) (hs : FbOk s) : FbOk t := by
  rcases runMove_fb_cases h with hfb | ⟨_, rfl | h⟩
  · unfold FbOk
    rwa [hfb]
  · rcases cmdStep_fb_cases s with hfb | ⟨m, l, hfb⟩
    · unfold FbOk
      rwa [hfb]
    · unfold FbOk
      rw [hfb]
      exact access_fbOk m (l, s) hs
  · rcases cmdRun_cases h with rfl | ⟨i, q, _, rfl⟩
    · exact hs
    · exact accesses_fbOk _ (_, s.withCmdq q) hs

/-- A DATA invocation may start a refill, at its first byte. -/
theorem dataInvoke_linesOk {s : State} (hs : LinesOk s) : LinesOk (dataInvoke s) := by
  obtain ⟨h0, h1, hk⟩ := hs
  dsimp only [dataInvoke]
  split
  · exact ⟨h0, h1, fun _ => Nat.zero_lt_succ 511⟩
  · exact ⟨h0, h1, hk⟩

/-- LUTP writes the byte at refill_k, and ends at the last. -/
theorem lutpMove_linesOk {s : State} (hs : LinesOk s) (ha : s.refill.active = true) : LinesOk (lutpMove s) := by
  obtain ⟨h0, h1, hk⟩ := hs
  obtain ⟨k0, k1⟩ := lineWrite_wf s.refill.buf (lut s.tables ((refillWordAt s).getLsbD (31 - s.refill.k % 32)))
    (hk ha) h0 h1
  refine ⟨k0, k1, fun hactive => ?_⟩
  have hne : s.refill.k + 1 ≠ 512 := of_decide_eq_true hactive
  have hlt := hk ha
  show s.refill.k + 1 < 512
  omega

theorem nextHalf_linesOk {s : State} (hs : LinesOk s) : LinesOk (nextHalf s) := by
  unfold nextHalf
  split <;> exact hs

theorem tgStep_linesOk {s t : State} (h : tgStep s = .next t) (hs : LinesOk s) : LinesOk t := by
  rcases tgStep_cases h with ⟨_, rfl⟩ | ⟨w, d, _, _, ⟨_, rfl⟩ | ⟨_, rfl⟩⟩
  · unfold tgFetch
    split <;> exact hs
  · exact nextHalf_linesOk (s := drivePulse _ _ s) hs
  · exact nextHalf_linesOk (s := signalDataStart (drivePulse _ _ s)) hs

theorem syncMove_linesOk {s : State} (hs : LinesOk s) : LinesOk (syncMove s) := by
  dsimp only [syncMove]
  split <;> exact hs

theorem runMove_linesOk {m : Move} {s t : State} (h : runMove m s = .next t) (hs : LinesOk s) : LinesOk t := by
  rcases runMove_cases h with ⟨_, rfl⟩ | ⟨_, rfl⟩ | ⟨_, rfl⟩ | ⟨_, rfl⟩ | ⟨_, h⟩ | h
  · unfold syncStep
    split
    · exact syncMove_linesOk hs
    · exact hs
  · unfold syncIrqStep
    split <;> exact hs
  · unfold dataStep
    split
    · exact dataInvoke_linesOk hs
    · exact hs
  · unfold lutpStep
    split
    · exact lutpMove_linesOk hs ‹_›
    · exact hs
  · exact tgStep_linesOk h hs
  · rw [h]
    exact hs

theorem hostEntry_otherRegsOk (n : Nat) (v : Byte) {s : State} (hs : OtherRegsOk s) : OtherRegsOk (hostEntry n v s) := by
  rcases hostEntry_cases n v s with h | ⟨hn, h⟩ <;> rw [h]
  · exact hs
  · exact memWrite_wf v hn hs

theorem OnlyGdpFb.otherRegs_eq {s t : State} (h : OnlyGdpFb s t) : t.otherRegs = s.otherRegs := by rw [h]

theorem cmdStep_otherRegs (s : State) : (cmdStep s).otherRegs = s.otherRegs := by
  unfold cmdStep
  split
  · unfold cmdStart
    split <;> rfl
  · rfl
  · rfl
  · rfl
  · exact (access_only _ _).otherRegs_eq

theorem runMove_otherRegsOk {m : Move} {s t : State} (h : runMove m s = .next t) (hs : OtherRegsOk s) :
    OtherRegsOk t := by
  have keep : ∀ u : State, u.par = s.par → u.otherRegs = s.otherRegs → OtherRegsOk u := fun u hp ho => by
    unfold OtherRegsOk
    rwa [hp, ho]
  have hp := (runMove_sameProgram h).par
  rcases runMove_kinds h with h | h | ⟨n, v, rfl⟩ | h | ⟨_, rfl | h⟩
  · exact keep t hp (by rw [h])
  · exact keep t hp (by rw [h])
  · exact hostEntry_otherRegsOk n v hs
  · rcases pageStep_cases h with rfl | ⟨_, h⟩
    · exact hs
    · exact keep t hp (by rw [h])
  · exact keep _ hp (cmdStep_otherRegs s)
  · rcases cmdRun_cases h with rfl | ⟨i, q, _, rfl⟩
    · exact hs
    · exact keep _ hp (runCommand_only _ _ (s.withCmdq q)).otherRegs_eq

theorem runMove_memoryInv {m : Move} {s t : State} (h : runMove m s = .next t) (hs : MemoryInv s) : MemoryInv t := by
  obtain ⟨hfb, hlines, hfont, hregs⟩ := (memoryInv_iff s).mp hs
  have htables := (runMove_sameProgram h).tables
  exact (memoryInv_iff t).mpr
    ⟨runMove_fbOk h hfb, runMove_linesOk h hlines, by rwa [htables], runMove_otherRegsOk h hregs⟩

/-! ### The invariant: the sequencer -/

/-- The sequence and the sync channel that replays it are in step, and no word has a reserved bit (R31, R46, R122). -/
structure SyncOk (y : Sync) : Prop where
  length : 1 ≤ y.seqLen ∧ y.seqLen ≤ 4096 ∧ y.seqLen ≤ y.seq.length
  idx_le : y.idx ≤ y.seqLen
  running_iff : y.running = true ↔ y.idx < y.seqLen
  irqPending : y.irqPending = !y.running
  words : ∀ w ∈ y.seq.take y.seqLen, wordWf w = true

/-- TGF is within its depth, and no word of it or of TG has a reserved bit (R47, R122). -/
structure TimingOk (p : Params) (g : Timing) : Prop where
  depth : g.fifo.length ≤ p.fifoDepth
  fifo : ∀ w ∈ g.fifo, wordWf w = true
  word : ∀ w, g.word = some w → wordWf w = true

theorem sequencerInv_iff (s : State) :
    SequencerInv s ↔ (s.booted = true → SyncOk s.sync ∧ TimingOk s.par s.tg) := by
  refine forall_congr' fun _ => ⟨?_, ?_⟩
  · rintro ⟨hlen, hidx, hrun, hirq, hdepth, hwords, hfifo, hword⟩
    exact ⟨⟨hlen, hidx, hrun, hirq, hwords⟩, ⟨hdepth, hfifo, hword⟩⟩
  · rintro ⟨⟨hlen, hidx, hrun, hirq, hwords⟩, ⟨hdepth, hfifo, hword⟩⟩
    exact ⟨hlen, hidx, hrun, hirq, hdepth, hwords, hfifo, hword⟩

/-- The word SYNC moves is one of the sequence's. -/
theorem SyncOk.next_wordWf {y : Sync} (h : SyncOk y) (hidx : y.idx < y.seqLen) : wordWf (y.seq.getD y.idx 0) = true := by
  have hlt : y.idx < y.seq.length := Nat.lt_of_lt_of_le hidx h.length.2.2
  rw [List.getD_eq_getElem _ _ hlt]
  exact h.words _ (List.mem_take_iff_getElem.mpr ⟨y.idx, by omega, rfl⟩)

/-- SYNC's move keeps the channel in step: it runs on, or stops at the end with its interrupt pending (R156). -/
theorem syncMove_syncOk {s : State} (h : SyncOk s.sync) (hrun : s.sync.running = true) : SyncOk (syncMove s).sync := by
  have hidx := h.running_iff.mp hrun
  rw [syncMove_sync]
  split
  · exact ⟨h.length, hidx, by simp; omega, rfl, h.words⟩
  · exact ⟨h.length, hidx, by simp [hrun]; omega, h.irqPending, h.words⟩

theorem syncMove_tg (s : State) :
    (syncMove s).tg = { s.tg with fifo := s.tg.fifo ++ [s.sync.seq.getD s.sync.idx 0] } := by
  dsimp only [syncMove]
  split <;> rfl

theorem syncMove_timingOk {s : State} (hy : SyncOk s.sync) (hg : TimingOk s.par s.tg) (he : syncEnabled s = true) :
    TimingOk s.par (syncMove s).tg := by
  obtain ⟨hrun, hroom⟩ : s.sync.running = true ∧ s.tg.fifo.length < s.par.fifoDepth := by simpa [syncEnabled] using he
  have hword := hy.next_wordWf (hy.running_iff.mp hrun)
  rw [syncMove_tg]
  refine ⟨by simpa using hroom, List.forall_mem_append.mpr ⟨hg.fifo, ?_⟩, hg.word⟩
  simpa using hword

/-- The completion handler starts the channel again at the first word (R158). -/
theorem syncIrq_syncOk {s : State} (h : SyncOk s.sync) : SyncOk (syncIrq s).sync :=
  ⟨h.length, Nat.zero_le _, iff_of_true rfl h.length.1, rfl, h.words⟩

theorem tgFetch_timingOk {p : Params} {s : State} (h : TimingOk p s.tg) : TimingOk p (tgFetch s).tg := by
  unfold tgFetch
  split
  · exact h
  · rename_i w ws hf
    obtain ⟨hdepth, hfifo, _⟩ := h
    rw [hf] at hdepth hfifo
    obtain ⟨hw, hws⟩ := List.forall_mem_cons.mp hfifo
    exact ⟨Nat.le_of_succ_le hdepth, hws, fun x hx => Option.some.inj hx ▸ hw⟩

theorem nextHalf_timingOk {p : Params} {s : State} (h : TimingOk p s.tg) : TimingOk p (nextHalf s).tg := by
  unfold nextHalf
  split
  · exact ⟨h.depth, h.fifo, h.word⟩
  · exact ⟨h.depth, h.fifo, nofun⟩

theorem drivePulse_timingOk {p : Params} {s : State} (lvl : BitVec 1) (dur : BitVec 10) (h : TimingOk p s.tg) :
    TimingOk p (drivePulse lvl dur s).tg :=
  ⟨h.depth, h.fifo, h.word⟩

theorem tgStep_timingOk {p : Params} {s t : State} (h : tgStep s = .next t) (hg : TimingOk p s.tg) :
    TimingOk p t.tg := by
  rcases tgStep_cases h with ⟨_, rfl⟩ | ⟨w, d, _, _, hd⟩
  · exact tgFetch_timingOk hg
  · have hdrive := drivePulse_timingOk (d.extractLsb' 10 1) (d.extractLsb' 0 10) hg
    rcases hd with ⟨_, rfl⟩ | ⟨_, rfl⟩
    · exact nextHalf_timingOk hdrive
    · exact nextHalf_timingOk (s := signalDataStart (drivePulse _ _ s)) hdrive

/-! DATA and LUTP leave the timing generator alone. -/

theorem dataStep_tg (s : State) : (dataStep s).tg = s.tg := by
  unfold dataStep
  split
  · dsimp only [dataInvoke]
    split <;> rfl
  · rfl

theorem lutpStep_tg (s : State) : (lutpStep s).tg = s.tg := by
  unfold lutpStep
  split <;> rfl

/-- A move keeps the sequencer in step. -/
theorem runMove_syncOk_timingOk {m : Move} {s t : State} (h : runMove m s = .next t) (hy : SyncOk s.sync)
    (hg : TimingOk s.par s.tg) : SyncOk t.sync ∧ TimingOk s.par t.tg := by
  rcases runMove_cases h with ⟨_, rfl⟩ | ⟨_, rfl⟩ | ⟨_, rfl⟩ | ⟨_, rfl⟩ | ⟨_, h⟩ | h
  · unfold syncStep
    split
    · rename_i he
      have hrun : s.sync.running = true := (Bool.and_eq_true_iff.mp he).1
      exact ⟨syncMove_syncOk hy hrun, syncMove_timingOk hy hg he⟩
    · exact ⟨hy, hg⟩
  · unfold syncIrqStep
    split
    · exact ⟨syncIrq_syncOk hy, hg⟩
    · exact ⟨hy, hg⟩
  · rw [(dataStep_only s).sync_eq, dataStep_tg]
    exact ⟨hy, hg⟩
  · rw [(lutpStep_only s).sync_eq, lutpStep_tg]
    exact ⟨hy, hg⟩
  · rw [(tgStep_only h).sync_eq]
    exact ⟨hy, tgStep_timingOk h hg⟩
  · rw [h]
    exact ⟨hy, hg⟩

theorem runMove_sequencerInv {m : Move} {s t : State} (h : runMove m s = .next t) (hs : SequencerInv s) :
    SequencerInv t := by
  rw [sequencerInv_iff] at hs ⊢
  have hprog := runMove_sameProgram h
  rw [hprog.par, hprog.booted]
  exact fun hb => runMove_syncOk_timingOk h (hs hb).1 (hs hb).2

/-! ### The invariant: the command in progress -/

/-- Accesses that read draw_page first may follow any latch. -/
theorem drawPageInv_of_readsPageFirst {s : State} {ms : List Micro} {l : Latch} (h : ReadsPageFirst ms)
    (hc : s.cmd = jobOf ms l) : DrawPageInv s := by
  intro ns l' hj
  cases ms
  case nil => cases hc.symm.trans hj
  case cons m ms =>
    cases hc.symm.trans hj
    exact ⟨.unknown, trivial, h .unknown⟩

/-- Whether operands are left to read or none, the command has no page yet. -/
theorem drawPageInv_of_jobReading {s u : State} {i : Instr} {rs : List Reg} {l : Latch}
    (hc : s.cmd = jobReading i rs l u) : DrawPageInv s := by
  cases rs
  case nil => exact drawPageInv_of_readsPageFirst (commandShape_commandMicros i l.gdp u).readsPageFirst hc
  case cons r rs => exact fun ms l' hj => by cases hc.symm.trans hj

theorem drawPageInv_of_idle {s : State} (hc : s.cmd = none) : DrawPageInv s := fun _ _ hj => by cases hc.symm.trans hj

theorem DrawPageInv.congr {s t : State} (h : DrawPageInv s) (hc : t.cmd = s.cmd) (hp : t.pagesel = s.pagesel) :
    DrawPageInv t := by
  unfold DrawPageInv drawPage at *
  rwa [hc, hp]

theorem cmdStart_drawPageInv {s : State} (hc : s.cmd = none) : DrawPageInv (cmdStart s) := by
  unfold cmdStart
  split
  · exact drawPageInv_of_idle hc
  · exact drawPageInv_of_jobReading rfl

theorem cmdStep_drawPageInv {s : State} (hs : DrawPageInv s) : DrawPageInv (cmdStep s) := by
  unfold cmdStep
  split
  · exact cmdStart_drawPageInv ‹_›
  · exact drawPageInv_of_idle rfl
  · exact drawPageInv_of_jobReading rfl
  · exact drawPageInv_of_idle rfl
  · rename_i m ms l hc
    obtain ⟨k, hk, hu⟩ := hs _ l hc
    obtain ⟨k', hk', hu'⟩ := usesPageRead_access (c := (l, s)) hu hk
    intro ns l' hj
    cases ms
    case nil => cases hj
    case cons n ms =>
      cases hj
      refine ⟨k', ?_, hu'⟩
      unfold drawPage at hk' ⊢
      rwa [State.withCmd_pagesel, access_pagesel]

theorem runMove_drawPageInv {m : Move} {s t : State} (h : runMove m s = .next t) (hs : DrawPageInv s) :
    DrawPageInv t := by
  rcases runMove_kinds h with h | h | ⟨n, v, rfl⟩ | h | ⟨_, rfl | h⟩
  · exact hs.congr (by rw [h]) (by rw [h])
  · exact hs.congr (by rw [h]) (by rw [h])
  · rcases hostEntry_cases n v s with h | ⟨_, h⟩
    · exact hs.congr (by rw [h]) (by rw [h])
    · exact hs.congr (by rw [h]; rfl) (by rw [h]; rfl)
  · rcases pageStep_cases h with rfl | ⟨hc, h⟩
    · exact hs
    · exact drawPageInv_of_idle (by rw [h]; exact hc)
  · exact cmdStep_drawPageInv hs
  · rcases cmdRun_cases h with rfl | ⟨i, q, hc, rfl⟩
    · exact hs
    · refine drawPageInv_of_idle ?_
      rw [runCommand_only]
      exact hc

/-! ### The invariant of the step -/

/-- Every move keeps the invariant. -/
theorem runMove_inv {m : Move} {s t : State} (h : runMove m s = .next t) (hs : Inv s) : Inv t := by
  obtain ⟨hmem, hseq, hpage⟩ := hs
  exact ⟨runMove_memoryInv h hmem, runMove_sequencerInv h hseq, runMove_drawPageInv h hpage⟩

theorem takeMove_inv {s : State} (hs : Inv s) : Inv (takeMove s).2 := by
  rw [takeMove_only s]
  exact hs

theorem loadTables_wf (p : Params) : Memory.wf fontBytes (loadTables p).font = true :=
  memLoad_wf (by simp) rfl

/-- A format that passes the checks leaves a sequence in step (R152, R355). -/
theorem bootState_syncOk {s : State} (hf : formatError s.par = none) : SyncOk (bootState s).sync := by
  obtain ⟨_, _, ⟨hpos, hmax⟩, hwf, _⟩ := (formatError_none_iff s.par).mp hf
  rw [← flatWords_length] at hpos hmax
  refine ⟨⟨hpos, hmax, ?_⟩, Nat.zero_le _, iff_of_true rfl hpos, rfl, fun w hw => ?_⟩
  · simp [bootState, build]
  · have hmem : w ∈ flatWords s.par.scanFormat := by simpa [bootState, build] using hw
    obtain ⟨b, hb, hwb⟩ := mem_flatWords hmem
    exact hwf b hb w hwb

theorem bootState_inv {s : State} (hf : formatError s.par = none) (hs : Inv s) : Inv (bootState s) := by
  obtain ⟨⟨hfb, h0, h1, _, hregs, _⟩, _, _⟩ := hs
  have htiming : TimingOk s.par (bootState s).tg := ⟨Nat.zero_le _, nofun, nofun⟩
  exact ⟨⟨hfb, h0, h1, loadTables_wf s.par, hregs, nofun⟩,
    (sequencerInv_iff _).mpr fun _ => ⟨bootState_syncOk hf, htiming⟩, drawPageInv_of_idle rfl⟩

/-- Settles O56: the boot establishes the sequencer's part, and every move keeps each of the three parts. -/
theorem everyStepKeepsTheInvariant : Obligations.EveryStepKeepsTheInvariant := by
  intro s t hs h
  rcases step_cases h with ⟨_, hf, rfl⟩ | ⟨_, h⟩
  · exact bootState_inv hf hs
  · exact runMove_inv h (takeMove_inv hs)

end Sys2Proof.Machine

/-! PROOFS. Pixel addressing (O28), what the sequencer's and the video pipeline's moves leave alone (O52), and the refusals
of a step (O60). -/

namespace Sys2Proof.Machine

/-! ### Pixel addressing -/

/-- The word index of a pixel never reaches the modulus of R82. -/
theorem pixWord_toNat (x : BitVec 9) (y : BitVec 8) :
    (pixWord x y).toNat = (255 - y.toNat) * 16 + x.toNat / 32 := by
  rw [pixWord, BitVec.toNat_ofNat]
  omega

/-- The pixel of bit `n` of word `w` of a page: the inverse of `pixWord` and `pixBit`. -/
def pixelAt (w : BitVec 12) (n : Nat) : BitVec 9 × BitVec 8 :=
  (BitVec.ofNat 9 (w.toNat % 16 * 32 + (31 - n)), BitVec.ofNat 8 (255 - w.toNat / 16))

theorem pixelAt_pixWord_pixBit (x : BitVec 9) (y : BitVec 8) : pixelAt (pixWord x y) (pixBit x) = (x, y) := by
  simp only [pixelAt, pixWord_toNat, pixBit]
  refine Prod.ext (BitVec.eq_of_toNat_eq ?_) (BitVec.eq_of_toNat_eq ?_)
  all_goals
    simp only [BitVec.toNat_ofNat]
    omega

theorem pixWord_pixelAt (w : BitVec 12) (n : Nat) : pixWord (pixelAt w n).1 (pixelAt w n).2 = w := by
  apply BitVec.eq_of_toNat_eq
  simp only [pixWord_toNat, pixelAt, BitVec.toNat_ofNat]
  omega

theorem pixBit_pixelAt (w : BitVec 12) {n : Nat} (hn : n < 32) : pixBit (pixelAt w n).1 = n := by
  simp only [pixBit, pixelAt, BitVec.toNat_ofNat]
  omega

/-- Settles O28: `pixelAt` is the two-sided inverse of the word and bit of a pixel. -/
theorem pixelAddressingIsABijection : Obligations.PixelAddressingIsABijection := by
  refine ⟨fun x y => ⟨BitVec.toNat_ofNat .., rfl⟩, fun x x' y y' hw hb => ?_, fun w n hn => ?_⟩
  · have hxy : (x, y) = (x', y') := by
      rw [← pixelAt_pixWord_pixBit x y, hw, hb, pixelAt_pixWord_pixBit]
    exact Prod.mk.inj hxy
  · exact ⟨_, _, pixWord_pixelAt w n, pixBit_pixelAt w hn⟩

/-! ### The moves of the sequencer and of the video pipeline -/

/-- A move of SYNC, TG, SYNC_IRQ, DATA or LUTP changes at most the sequencer, the video pipeline and the history. -/
theorem runMove_onlyVideoSide {m : Move} {s t : State} (hm : videoMove m = true) (h : runMove m s = .next t) :
    OnlyVideoSide s t := by
  cases m
  case tg => exact (tgStep_only h).onlyVideoSide
  case sync => cases h; exact syncStep_only s
  case syncIrq => cases h; exact syncIrqStep_only s
  case data => cases h; exact (dataStep_only s).onlyVideoSide
  case lutp => cases h; exact (lutpStep_only s).onlyVideoSide
  all_goals cases hm

/-- Settles O52: no field named is among those the video side may change. -/
theorem videoAgentsTouchNoRegister : Obligations.VideoAgentsTouchNoRegister := by
  intro m s t hm h
  rw [runMove_onlyVideoSide hm h]
  exact ⟨rfl, rfl, rfl, rfl, rfl, rfl, rfl, rfl⟩

/-! ### The refusals of a step -/

/-- Every instruction has a meaning: `exec` always answers a next state. -/
theorem exec_next (i : Instr) (s : State) : ∃ t, exec i s = .next t := by
  cases i <;> exact ⟨_, rfl⟩

theorem exec_ne_refused (i : Instr) (s : State) (r : Refusal) : exec i s ≠ .refused r := by
  obtain ⟨t, ht⟩ := exec_next i s
  rw [ht]
  nofun

theorem cmdRun_ne_refused (s : State) (r : Refusal) : cmdRun s ≠ .refused r := by
  unfold cmdRun
  split
  · exact exec_ne_refused _ _ r
  · nofun

theorem pageStep_ne_refused (s : State) (r : Refusal) : pageStep s ≠ .refused r := by
  unfold pageStep
  split
  · exact exec_ne_refused _ _ r
  · nofun

/-- Both halves of a well-formed word are descriptors without reserved bits (R122). -/
theorem descriptorWf_tgDescriptor {w : Word} (half : BitVec 1) (hw : wordWf w = true) :
    descriptorWf (tgDescriptor half w) = true := by
  obtain ⟨hfirst, hsecond⟩ := Bool.and_eq_true_iff.mp hw
  unfold tgDescriptor
  split
  · exact hfirst
  · exact hsecond

/-- TG refuses only at a word that holds a reserved descriptor (R122, log 14). -/
theorem tgStep_refused {s : State} {r : Refusal} (h : tgStep s = .refused r) :
    r = .reservedDescriptor ∧ ∃ w, s.tg.word = some w ∧ wordWf w = false := by
  unfold tgStep at h
  split at h
  · cases h
  split at h
  · exact absurd h (exec_ne_refused _ s r)
  · rename_i w hw _ he
    cases h
    refine ⟨rfl, w, hw, Bool.eq_false_iff.mpr fun hwf => ?_⟩
    rw [decodeDescriptor_of_wf (descriptorWf_tgDescriptor _ hwf)] at he
    cases he

/-- Of the moves only HOST's request for another format and TG's step can be refused. -/
theorem runMove_refused {m : Move} {s : State} {r : Refusal} (h : runMove m s = .refused r) :
    (r = .formatChangeWhilePlaying ∧ ∃ f, m = .hostFormat f) ∨ (m = .tg ∧ tgStep s = .refused r) := by
  cases m
  case tg => exact .inr ⟨rfl, h⟩
  case hostFormat f => cases h; exact .inl ⟨rfl, f, rfl⟩
  case pageSwitch => exact absurd h (pageStep_ne_refused s r)
  case cmdRun => exact absurd h (cmdRun_ne_refused s r)
  all_goals cases h

/-- A step that is refused is the boot of an ill-formed format, or a refused move of a booted state. -/
theorem step_refused {s : State} {r : Refusal} (h : step s = .refused r) :
    (s.booted = false ∧ ∃ e, r = .illFormedScanFormat e) ∨
      (s.booted = true ∧ runMove (takeMove s).1 (takeMove s).2 = .refused r) := by
  unfold step at h
  split at h
  · rename_i hb
    unfold bootStep at h
    split at h <;> cases h
    exact .inl ⟨hb, _, rfl⟩
  · exact .inr ⟨‹_›, h⟩

theorem takeMove_tg (s : State) : (takeMove s).2.tg = s.tg := by rw [takeMove_only]

/-- Settles O60: there is no fault to answer, and a refused step is the boot's, or a move's of the two that can be refused. -/
theorem onlyTheNamedRefusalsStopAStep : Obligations.OnlyTheNamedRefusalsStopAStep := by
  refine fun s => ⟨nofun, fun r h => ?_⟩
  rcases step_refused h with hboot | ⟨hb, h⟩
  · exact .inl hboot
  rcases runMove_refused h with ⟨hr, hf⟩ | ⟨hm, h⟩
  · exact .inr (.inl ⟨hb, hr, hf⟩)
  · obtain ⟨hr, hw⟩ := tgStep_refused h
    rw [takeMove_tg] at hw
    exact .inr (.inr ⟨hb, hr, hm, hw⟩)

end Sys2Proof.Machine

/-! PROOFS. Cyclic playback (O57). -/

namespace Sys2Proof.Machine

/-! ### Cyclic playback -/

/-- The events of the words TG has been sent: those it has emitted, and those it and TGF still hold (R163). -/
def sentEvents (s : State) : List Event :=
  s.history.filter Event.isTiming ++ pendingEvents s.par.durationBias s.tg ++
    s.tg.fifo.flatMap (wordEvents s.par.durationBias)

/-- The events of the sequence so far: those of a whole pass for each FrameSync, and of the words moved since (R163). -/
def sequenceEvents (s : State) : List Event :=
  (List.replicate (s.history.countP Event.isFrameSync)
      ((s.sync.seq.take s.sync.seqLen).flatMap (wordEvents s.par.durationBias))).flatten ++
    (s.sync.seq.take s.sync.idx).flatMap (wordEvents s.par.durationBias)

theorem playbackInv_iff (s : State) : PlaybackInv s ↔ (s.booted = true → sentEvents s = sequenceEvents s) := Iff.rfl

/-! SYNC moves one word: its events are sent, and they are the next of the sequence (R156). -/

theorem syncMove_history (s : State) : (syncMove s).history = s.history := by
  dsimp only [syncMove]
  split <;> rfl

theorem sentEvents_syncMove (s : State) :
    sentEvents (syncMove s) = sentEvents s ++ wordEvents s.par.durationBias (s.sync.seq.getD s.sync.idx 0) := by
  have hpar : (syncMove s).par = s.par := by rw [syncMove_only s]
  simp only [sentEvents, syncMove_tg, syncMove_history, hpar, pendingEvents, List.flatMap_append,
    List.flatMap_singleton, List.append_assoc]

theorem sequenceEvents_syncMove {s : State} (h : s.sync.idx < s.sync.seq.length) :
    sequenceEvents (syncMove s) =
      sequenceEvents s ++ wordEvents s.par.durationBias (s.sync.seq.getD s.sync.idx 0) := by
  have hpar : (syncMove s).par = s.par := by rw [syncMove_only s]
  have hidx : (syncMove s).sync.idx = s.sync.idx + 1 := by
    rw [syncMove_sync]
    split <;> rfl
  have hseq : (syncMove s).sync.seq = s.sync.seq ∧ (syncMove s).sync.seqLen = s.sync.seqLen := by
    rw [syncMove_sync]
    split <;> exact ⟨rfl, rfl⟩
  simp only [sequenceEvents, syncMove_history, hpar, hidx, hseq, List.take_add_one,
    List.getElem?_eq_getElem h, Option.toList_some, List.flatMap_append, List.flatMap_singleton,
    List.getD_eq_getElem _ _ h, List.append_assoc]

theorem syncStep_playback {s : State} (hy : SyncOk s.sync) (hs : sentEvents s = sequenceEvents s) :
    sentEvents (syncStep s) = sequenceEvents (syncStep s) := by
  unfold syncStep
  split
  · rename_i he
    have hrun : s.sync.running = true := (Bool.and_eq_true_iff.mp he).1
    have hidx : s.sync.idx < s.sync.seq.length := Nat.lt_of_lt_of_le (hy.running_iff.mp hrun) hy.length.2.2
    rw [sentEvents_syncMove, sequenceEvents_syncMove hidx, hs]
  · exact hs

/-! SYNC_IRQ records a FrameSync for the pass just completed and starts the next one (R158). -/

/-- A pending completion stands at the end of the sequence. -/
theorem SyncOk.idx_eq_of_irqPending {y : Sync} (h : SyncOk y) (hirq : y.irqPending = true) : y.idx = y.seqLen := by
  have hrun : ¬ y.running = true := by simpa [h.irqPending] using hirq
  exact le_antisymm h.idx_le (Nat.not_lt.mp (mt h.running_iff.mpr hrun))

theorem sentEvents_syncIrq (s : State) : sentEvents (syncIrq s) = sentEvents s := by
  simp [sentEvents, syncIrq, Event.isTiming]

theorem sequenceEvents_syncIrq {s : State} (h : s.sync.idx = s.sync.seqLen) :
    sequenceEvents (syncIrq s) = sequenceEvents s := by
  simp [sequenceEvents, syncIrq, Event.isFrameSync, h, List.replicate_succ']

theorem syncIrqStep_playback {s : State} (hy : SyncOk s.sync) (hs : sentEvents s = sequenceEvents s) :
    sentEvents (syncIrqStep s) = sequenceEvents (syncIrqStep s) := by
  unfold syncIrqStep
  split
  · rw [sentEvents_syncIrq, sequenceEvents_syncIrq (hy.idx_eq_of_irqPending ‹_›), hs]
  · exact hs

/-! TG fetches a word, or emits the events of the descriptor it stands at. -/

/-- The sequence's events depend on the history by its FrameSync events only. -/
theorem OnlyOutputSide.sequenceEvents_eq {s t : State} (h : OnlyOutputSide s t)
    (hc : t.history.countP Event.isFrameSync = s.history.countP Event.isFrameSync) :
    sequenceEvents t = sequenceEvents s := by
  have hpar : t.par = s.par := by rw [h]
  simp only [sequenceEvents, h.sync_eq, hpar, hc]

theorem descriptorEvents_isTiming (bias : Nat) (d : Descriptor) :
    ∀ e ∈ descriptorEvents bias d, e.isTiming = true ∧ e.isFrameSync = false := by
  unfold descriptorEvents
  split <;> simp [Event.isTiming, Event.isFrameSync]

theorem descriptorEvents_filter (bias : Nat) (d : Descriptor) :
    (descriptorEvents bias d).filter Event.isTiming = descriptorEvents bias d :=
  List.filter_eq_self.mpr fun e he => (descriptorEvents_isTiming bias d e he).1

theorem descriptorEvents_countP (bias : Nat) (d : Descriptor) :
    (descriptorEvents bias d).countP Event.isFrameSync = 0 :=
  List.countP_eq_zero.mpr fun e he => Bool.eq_false_iff.mp (descriptorEvents_isTiming bias d e he).2

/-- A TG step without a word fetches one; with a word it emits the events of the descriptor it stands at, and then goes on
to the next half (R157, R159, R160). -/
theorem tgStep_events {s t : State} (h : tgStep s = .next t) :
    (s.tg.word = none ∧ t = tgFetch s) ∨
      ∃ w u lvl, s.tg.word = some w ∧ t = nextHalf u ∧ u.par = s.par ∧ u.tg = { s.tg with level := lvl } ∧
        u.history = s.history ++ descriptorEvents s.par.durationBias (tgDescriptor s.tg.half w) := by
  rcases tgStep_cases h with hfetch | ⟨w, d, hw, rfl, hd⟩
  · exact .inl hfetch
  · refine .inr ⟨w, ?_⟩
    unfold descriptorEvents
    rcases hd with ⟨h11, rfl⟩ | ⟨h11, rfl⟩ <;> rw [h11]
    · exact ⟨_, _, hw, rfl, rfl, rfl, rfl⟩
    · exact ⟨_, _, hw, rfl, rfl, rfl, List.append_assoc ..⟩

theorem sentEvents_tgFetch {s : State} (hw : s.tg.word = none) : sentEvents (tgFetch s) = sentEvents s := by
  unfold tgFetch
  split
  · rfl
  · simp [sentEvents, pendingEvents, *]

/-- Past a descriptor its events are no longer pending (R159). -/
theorem pendingEvents_nextHalf {u : State} {w : Word} (bias : Nat) (hw : u.tg.word = some w) :
    pendingEvents bias u.tg = descriptorEvents bias (tgDescriptor u.tg.half w) ++ pendingEvents bias (nextHalf u).tg := by
  by_cases hh : u.tg.half = 0#1 <;> simp [pendingEvents, nextHalf, tgDescriptor, wordEvents, hw, hh]

theorem nextHalf_keeps (u : State) :
    (nextHalf u).par = u.par ∧ (nextHalf u).history = u.history ∧ (nextHalf u).tg.fifo = u.tg.fifo := by
  unfold nextHalf
  split <;> exact ⟨rfl, rfl, rfl⟩

/-- Executing a descriptor turns its events from pending into emitted; a fetch moves a word from TGF to TG. -/
theorem sentEvents_tgStep {s t : State} (h : tgStep s = .next t) : sentEvents t = sentEvents s := by
  rcases tgStep_events h with ⟨hw, rfl⟩ | ⟨w, u, lvl, hw, rfl, hpar, htg, hhist⟩
  · exact sentEvents_tgFetch hw
  · obtain ⟨hpar', hhist', hfifo'⟩ := nextHalf_keeps u
    have hpend := pendingEvents_nextHalf (u := u) s.par.durationBias (by rw [htg]; exact hw)
    rw [htg] at hpend hfifo'
    change pendingEvents s.par.durationBias s.tg = _ at hpend
    simp only [sentEvents, hpar', hpar, hhist', hhist, hfifo', hpend, List.filter_append, descriptorEvents_filter,
      List.append_assoc]

theorem countP_isFrameSync_tgStep {s t : State} (h : tgStep s = .next t) :
    t.history.countP Event.isFrameSync = s.history.countP Event.isFrameSync := by
  rcases tgStep_events h with ⟨_, rfl⟩ | ⟨w, u, lvl, _, rfl, _, _, hhist⟩
  · unfold tgFetch
    split <;> rfl
  · rw [(nextHalf_keeps u).2.1, hhist, List.countP_append, descriptorEvents_countP, Nat.add_zero]

/-! DATA and LUTP record no event of playback. -/

theorem lutpStep_history (s : State) : (lutpStep s).history = s.history := by
  unfold lutpStep
  split <;> rfl

/-- A DATA step records at most an OutLine (R171). -/
theorem dataStep_history (s : State) :
    (dataStep s).history = s.history ∨ ∃ bs, (dataStep s).history = s.history ++ [.outLine bs] := by
  unfold dataStep
  split
  · refine .inr ⟨lineBytes (lineBuffer s.video (outBuffer s.video.lineCounter)), ?_⟩
    dsimp only [dataInvoke]
    split <;> rfl
  · exact .inl rfl

/-- A step that leaves TG alone and records at most an OutLine keeps playback. -/
theorem OnlyOutputSide.playback {s t : State} (h : OnlyOutputSide s t) (htg : t.tg = s.tg)
    (hh : t.history = s.history ∨ ∃ bs, t.history = s.history ++ [.outLine bs])
    (hs : sentEvents s = sequenceEvents s) : sentEvents t = sequenceEvents t := by
  have hpar : t.par = s.par := by rw [h]
  have hevents : t.history.filter Event.isTiming = s.history.filter Event.isTiming ∧
      t.history.countP Event.isFrameSync = s.history.countP Event.isFrameSync := by
    rcases hh with hh | ⟨bs, hh⟩ <;> simp [hh, Event.isTiming, Event.isFrameSync]
  rw [h.sequenceEvents_eq hevents.2, ← hs]
  simp only [sentEvents, htg, hpar, hevents]

/-- Every move keeps cyclic playback. -/
theorem runMove_playback {m : Move} {s t : State} (h : runMove m s = .next t) (hy : SyncOk s.sync)
    (hs : sentEvents s = sequenceEvents s) : sentEvents t = sequenceEvents t := by
  rcases runMove_cases h with ⟨_, rfl⟩ | ⟨_, rfl⟩ | ⟨_, rfl⟩ | ⟨_, rfl⟩ | ⟨_, h⟩ | h
  · exact syncStep_playback hy hs
  · exact syncIrqStep_playback hy hs
  · exact (dataStep_only s).playback (dataStep_tg s) (dataStep_history s) hs
  · exact (lutpStep_only s).playback (lutpStep_tg s) (.inl (lutpStep_history s)) hs
  · rw [sentEvents_tgStep h, (tgStep_only h).sequenceEvents_eq (countP_isFrameSync_tgStep h), hs]
  · rw [h]
    exact hs

/-- Settles O57: after the boot nothing is sent and no word moved; each move adds the same events to both sides. -/
theorem playbackIsCyclic : Obligations.PlaybackIsCyclic := by
  intro s t hseq hs h
  rw [playbackInv_iff] at hs ⊢
  rcases step_cases h with ⟨_, _, rfl⟩ | ⟨hb, h⟩
  · exact fun _ => rfl
  · have hy := ((sequencerInv_iff s).mp hseq hb).1
    rw [takeMove_only s] at h
    exact fun _ => runMove_playback h hy (hs hb)

end Sys2Proof.Machine

/-! PROOFS. The decoders and the encoder (O1 to O5). -/

namespace Sys2Proof.Machine

open Sys2Proof.Laws.TableRow (matchesRow)

/-! ### The rows of the command table -/

/-- The first row of a table of (mask, match) pairs that matches a byte. -/
def firstRow (b : Byte) (rows : List (Byte × Byte)) : Nat := rows.findIdx fun r => b &&& r.1 == r.2

/-- The row of the command table a byte stands in (R119). -/
abbrev rowOf (b : Byte) : Nat := firstRow b commandRows

/-- The instruction row `n` of the command table gives a byte: its fields are bits of the byte (R111 to R115). -/
def rowInstr (b : Byte) : Nat → Instr
  | 0 => .pen
  | 1 => .eraser
  | 2 => .pendown
  | 3 => .penup
  | 4 => .cls
  | 5 => .xyrst
  | 6 => .clsxy
  | 7 => .reset
  | 8 => .nop08 (b.extractLsb' 0 1)
  | 9 => .cursor
  | 10 => .nop0B
  | 11 => .nop0C (b.extractLsb' 0 2)
  | 12 => .vec (b.extractLsb' 2 1) (b.extractLsb' 1 1) (b.extractLsb' 0 1)
  | 13 => .vecEq (b.extractLsb' 2 1) (b.extractLsb' 1 1) (b.extractLsb' 0 1)
  | 14 => .char20 b
  | 15 => .char40 b
  | _ => .svec (b.extractLsb' 5 2) (b.extractLsb' 3 2) (b.extractLsb' 2 1) (b.extractLsb' 1 1) (b.extractLsb' 0 1)

theorem firstRow_nil (b : Byte) : firstRow b [] = 0 := rfl

theorem rowInstr_firstRow_cons (b : Byte) (r : Byte × Byte) (rows : List (Byte × Byte)) (k : Nat) :
    rowInstr b (k + firstRow b (r :: rows)) =
      if b &&& r.1 = r.2 then rowInstr b k else rowInstr b (k + 1 + firstRow b rows) := by
  rw [firstRow, firstRow, List.findIdx_cons]
  split <;> rename_i h
  · rw [beq_iff_eq.mpr h, cond_true, Nat.add_zero]
  · rw [beq_eq_false_iff_ne.mpr h, cond_false, Nat.add_right_comm, Nat.add_assoc]

theorem and_0xFF (b : Byte) : b &&& 0xFF = b := BitVec.and_allOnes

/-- The decoder tries the rows in order: it answers the instruction of the first that matches (R119). -/
theorem decodeCommand_eq_rowInstr (b : Byte) : decodeCommand b = rowInstr b (rowOf b) := by
  rw [rowOf, ← Nat.zero_add (firstRow _ _)]
  simp only [commandRows, rowInstr_firstRow_cons, firstRow_nil, and_0xFF]
  simp only [rowInstr, ite_self]
  rfl

theorem commandRow_rowInstr (b : Byte) {n : Nat} (hn : n < commandRows.length) : commandRow (rowInstr b n) = some n := by
  change n < 17 at hn
  interval_cases n <;> rfl

/-- Every byte matches a row. -/
theorem rowOf_lt : ∀ b : Byte, rowOf b < commandRows.length := by decide +kernel

theorem matchesRow_rowOf (b : Byte) : matchesRow b (rowOf b) := by
  rw [matchesRow, List.getD_eq_getElem _ _ (rowOf_lt b)]
  exact eq_of_beq (List.findIdx_getElem (w := rowOf_lt b))

/-- Any two rows of the table differ in a bit that both fix. -/
theorem commandRows_disjoint :
    ∀ n < commandRows.length, ∀ k < commandRows.length,
      (commandRows.getD n (0, 0)).2 &&& (commandRows.getD k (0, 0)).1 =
        (commandRows.getD k (0, 0)).2 &&& (commandRows.getD n (0, 0)).1 → n = k := by
  decide +kernel

theorem matchesRow_unique {b : Byte} {n k : Nat} (hn : n < commandRows.length) (hk : k < commandRows.length)
    (h : matchesRow b n) (h' : matchesRow b k) : n = k := by
  refine commandRows_disjoint n hn k hk ?_
  rw [← h, ← h', BitVec.and_assoc, BitVec.and_comm _ (commandRows.getD k (0, 0)).1, ← BitVec.and_assoc]

/-- Settles O4: the row is the first that matches, and no two rows match one byte. -/
theorem eachByteHasOneCommandRow : Obligations.EachByteHasOneCommandRow := by
  intro b
  refine ⟨rowOf b, ?_, fun k hk => ⟨fun h => matchesRow_unique hk (rowOf_lt b) h (matchesRow_rowOf b), ?_⟩⟩
  · rw [decodeCommand_eq_rowInstr, commandRow_rowInstr b (rowOf_lt b)]
  · rintro rfl
    exact matchesRow_rowOf b

/-! ### Fields of an encoding -/

section
variable {h : Nat} (p : BitVec h)

theorem direction_fields (sy sx a : BitVec 1) :
    (p ++ sy ++ sx ++ a).extractLsb' 2 1 = sy ∧ (p ++ sy ++ sx ++ a).extractLsb' 1 1 = sx ∧
      (p ++ sy ++ sx ++ a).extractLsb' 0 1 = a := by
  simp [BitVec.extractLsb'_append_eq_of_le, BitVec.extractLsb'_append_eq_right]

theorem magnitude_fields (dx dy : BitVec 2) (sy sx a : BitVec 1) :
    (p ++ dx ++ dy ++ sy ++ sx ++ a).extractLsb' 5 2 = dx ∧ (p ++ dx ++ dy ++ sy ++ sx ++ a).extractLsb' 3 2 = dy := by
  simp [BitVec.extractLsb'_append_eq_of_le, BitVec.extractLsb'_append_eq_right]

theorem pulse_fields (lvl : BitVec 1) (dur : BitVec 10) :
    (p ++ lvl ++ dur).extractLsb' 10 1 = lvl ∧ (p ++ lvl ++ dur).extractLsb' 0 10 = dur := by
  simp [BitVec.extractLsb'_append_eq_of_le, BitVec.extractLsb'_append_eq_right]

theorem page_fields (draw : BitVec 2) (ignored : BitVec 4) :
    (p ++ draw ++ ignored).extractLsb' 6 h = p ∧ (p ++ draw ++ ignored).extractLsb' 4 2 = draw ∧
      (p ++ draw ++ ignored).extractLsb' 0 4 = ignored := by
  simp [BitVec.extractLsb'_append_eq_of_le, BitVec.extractLsb'_append_eq_right]

end

/-! ### Decode of encode -/

theorem commandRow_lt {i : Instr} {n : Nat} (h : commandRow i = some n) : n < commandRows.length := by
  cases i <;> cases h <;> decide

theorem rowInstr_encode {i : Instr} {b : Byte} {n : Nat} (he : encode i = .command b) (hn : commandRow i = some n) :
    rowInstr b n = i := by
  cases i <;> cases he <;> cases hn
  case nop08 r => exact congrArg Instr.nop08 BitVec.extractLsb'_append_eq_right
  case nop0C r => exact congrArg Instr.nop0C BitVec.extractLsb'_append_eq_right
  case vec sy sx a => simpa [rowInstr] using direction_fields 0b00010#5 sy sx a
  case vecEq sy sx a => simpa [rowInstr] using direction_fields 0b00011#5 sy sx a
  case svec dx dy sy sx a =>
    simpa [rowInstr, and_assoc] using
      And.intro (magnitude_fields 0b1#1 dx dy sy sx a) (direction_fields (0b1#1 ++ dx ++ dy) sy sx a)
  all_goals rfl

/-- The bits the table fixes in the encoding of a well-formed instruction, from the architect's lemma for each one. -/
theorem encode_tableRow (i : Instr) : Laws.TableRow.Statement i := by
  cases i
  case pen => exact Laws.TableRow.pen
  case eraser => exact Laws.TableRow.eraser
  case pendown => exact Laws.TableRow.pendown
  case penup => exact Laws.TableRow.penup
  case cls => exact Laws.TableRow.cls
  case xyrst => exact Laws.TableRow.xyrst
  case clsxy => exact Laws.TableRow.clsxy
  case reset => exact Laws.TableRow.reset
  case nop08 r => exact Laws.TableRow.nop08 r
  case cursor => exact Laws.TableRow.cursor
  case nop0B => exact Laws.TableRow.nop0B
  case nop0C r => exact Laws.TableRow.nop0C r
  case vec sy sx a => exact Laws.TableRow.vec sy sx a
  case vecEq sy sx a => exact Laws.TableRow.vecEq sy sx a
  case char20 g => exact Laws.TableRow.char20 g
  case char40 g => exact Laws.TableRow.char40 g
  case svec dx dy sy sx a => exact Laws.TableRow.svec dx dy sy sx a
  case pulse lvl dur => exact Laws.TableRow.pulse lvl dur
  case pulseDs lvl dur => exact Laws.TableRow.pulseDs lvl dur
  case page disp draw ignored => exact Laws.TableRow.page disp draw ignored

theorem decodeCommand_encode {i : Instr} {b : Byte} (hw : i.wf = true) (he : encode i = .command b) :
    decodeCommand b = i := by
  have hrow := encode_tableRow i hw
  rw [he] at hrow
  obtain ⟨n, hn, hb⟩ := hrow
  have hn' : rowOf b = n := matchesRow_unique (rowOf_lt b) (commandRow_lt hn) (matchesRow_rowOf b) hb
  rw [decodeCommand_eq_rowInstr, hn', rowInstr_encode he hn]

theorem decodeDescriptor_encode {i : Instr} {d : Descriptor} (hw : i.wf = true) (he : encode i = .descriptor d) :
    decodeDescriptor d = .ok i := by
  have hrow := encode_tableRow i hw
  rw [he] at hrow
  obtain ⟨_, hwf, h11⟩ := hrow
  have h11 : d.getLsbD 11 = true ↔ ∃ l t, i = .pulseDs l t := by
    rw [← h11, BitVec.getLsbD_eq_extractLsb', beq_iff_eq]
    rfl
  rw [decodeDescriptor_of_wf hwf]
  cases i <;> cases he
  case pulse =>
    rw [if_neg (mt h11.mp nofun)]
    simpa using pulse_fields 0b00000#5 _ _
  case pulseDs =>
    rw [if_pos (h11.mpr ⟨_, _, rfl⟩)]
    simpa using pulse_fields 0b00001#5 _ _

theorem decodePage_encode (disp draw : BitVec 2) (ignored : BitVec 4) :
    decodePage (disp ++ draw ++ ignored) = .page disp draw ignored := by
  simpa [decodePage] using page_fields disp draw ignored

/-- Settles O2, by the kind of the word. -/
theorem decodeOfEncodeIsTheInstruction : Obligations.DecodeOfEncodeIsTheInstruction := by
  intro i hw
  cases he : encode i with
  | command b => exact congrArg Except.ok (decodeCommand_encode hw he)
  | descriptor d => exact decodeDescriptor_encode hw he
  | pageByte b =>
    cases i <;> cases he
    exact congrArg Except.ok (decodePage_encode _ _ _)

/-! ### Encode of decode -/

/-- The bits a mask keeps are those of the match. -/
theorem extractLsb'_of_masked {w start len : Nat} {v k m : BitVec w} (hv : v &&& k = m)
    (hk : k.extractLsb' start len = BitVec.allOnes len) : v.extractLsb' start len = m.extractLsb' start len := by
  rw [← hv, BitVec.extractLsb'_and, hk, BitVec.and_allOnes]

/-! A word is its fields, one after another. -/

theorem append_low {h l : Nat} {v : BitVec (h + l)} {p : BitVec h} (hp : v.extractLsb' l h = p) :
    p ++ v.extractLsb' 0 l = v := by
  rw [← hp, BitVec.extractLsb'_append_extractLsb']

theorem append_direction {h : Nat} {v : BitVec (h + 1 + 1 + 1)} {p : BitVec h} (hp : v.extractLsb' 3 h = p) :
    p ++ v.extractLsb' 2 1 ++ v.extractLsb' 1 1 ++ v.extractLsb' 0 1 = v := by
  simp [← hp, BitVec.extractLsb'_append_extractLsb'_eq_extractLsb', BitVec.extractLsb'_eq_self]

theorem append_magnitudes {w h : Nat} {v : BitVec w} {p : BitVec h} (hp : v.extractLsb' 7 h = p) :
    v.extractLsb' 3 (h + 2 + 2) = p ++ v.extractLsb' 5 2 ++ v.extractLsb' 3 2 := by
  simp [← hp, BitVec.extractLsb'_append_extractLsb'_eq_extractLsb']

theorem append_pulse {h : Nat} {v : BitVec (h + 1 + 10)} {p : BitVec h} (hp : v.extractLsb' 11 h = p) :
    p ++ v.extractLsb' 10 1 ++ v.extractLsb' 0 10 = v := by
  simp [← hp, BitVec.extractLsb'_append_extractLsb'_eq_extractLsb', BitVec.extractLsb'_eq_self]

theorem append_page {h : Nat} (v : BitVec (h + 2 + 4)) :
    v.extractLsb' 6 h ++ v.extractLsb' 4 2 ++ v.extractLsb' 0 4 = v := by
  simp [BitVec.extractLsb'_append_extractLsb'_eq_extractLsb', BitVec.extractLsb'_eq_self]

/-- The encoding of what a row gives a byte of it is the byte. -/
theorem encode_rowInstr {b : Byte} {n : Nat} (hn : n < commandRows.length) (h : matchesRow b n) :
    encode (rowInstr b n) = .command b ∧ (rowInstr b n).wf = true := by
  have top : ∀ start len, (commandRows.getD n (0, 0)).1.extractLsb' start len = BitVec.allOnes len →
      b.extractLsb' start len = (commandRows.getD n (0, 0)).2.extractLsb' start len := fun _ _ =>
    extractLsb'_of_masked h
  change n < 17 at hn
  match n, hn with
  | 0, _ | 1, _ | 2, _ | 3, _ | 4, _ | 5, _ | 6, _ | 7, _ | 9, _ | 10, _ =>
    exact ⟨congrArg Code.command (h.symm.trans (and_0xFF b)), rfl⟩
  | 8, _ => exact ⟨congrArg Code.command (append_low (h := 7) (top 1 7 (by decide))), rfl⟩
  | 11, _ => exact ⟨congrArg Code.command (append_low (h := 6) (top 2 6 (by decide))), rfl⟩
  | 12, _ | 13, _ => exact ⟨congrArg Code.command (append_direction (h := 5) (top 3 5 (by decide))), rfl⟩
  | 14, _ => exact ⟨rfl, beq_iff_eq.mpr (top 5 3 (by decide))⟩
  | 15, _ => exact ⟨rfl, beq_iff_eq.mpr (top 6 2 (by decide))⟩
  | 16, _ =>
    have hmagnitudes := append_magnitudes (top 7 1 (by decide))
    exact ⟨congrArg Code.command (append_direction (h := 5) hmagnitudes), rfl⟩
  | n + 17, hn => exact absurd hn (by omega)

theorem encode_decodeDescriptor {d : Descriptor} {i : Instr} (h : decodeDescriptor d = .ok i) :
    encode i = .descriptor d ∧ i.wf = true := by
  unfold decodeDescriptor at h
  split at h <;> rename_i h0
  · cases h
    have htop : d.extractLsb' 11 5 = 0b00000#5 := extractLsb'_of_masked h0 (by decide)
    exact ⟨congrArg Code.descriptor (append_pulse (h := 5) htop), rfl⟩
  split at h <;> rename_i h1
  · cases h
    have htop : d.extractLsb' 11 5 = 0b00001#5 := extractLsb'_of_masked h1 (by decide)
    exact ⟨congrArg Code.descriptor (append_pulse (h := 5) htop), rfl⟩
  · cases h

/-- Settles O3, by the kind of the word. -/
theorem encodeOfDecodeIsTheWord : Obligations.EncodeOfDecodeIsTheWord := by
  intro c i h
  cases c with
  | command b =>
    obtain rfl : decodeCommand b = i := Except.ok.inj h
    rw [decodeCommand_eq_rowInstr]
    exact encode_rowInstr (rowOf_lt b) (matchesRow_rowOf b)
  | descriptor d => exact encode_decodeDescriptor h
  | pageByte b =>
    obtain rfl : decodePage b = i := Except.ok.inj h
    exact ⟨congrArg Code.pageByte (append_page (h := 2) b), rfl⟩

/-! ### Reserved descriptors -/

/-- A decoded descriptor has its reserved bits 0 (R122). -/
theorem descriptorWf_of_decode {d : Descriptor} {i : Instr} (h : decodeDescriptor d = .ok i) : descriptorWf d = true := by
  unfold decodeDescriptor at h
  rw [descriptorWf, beq_iff_eq]
  split at h <;> rename_i h0
  · exact extractLsb'_of_masked h0 (by decide)
  split at h <;> rename_i h1
  · exact extractLsb'_of_masked h1 (by decide)
  · cases h

theorem decodeDescriptor_of_not_wf {d : Descriptor} (h : descriptorWf d = false) :
    decodeDescriptor d = .error .reservedDescriptor := by
  cases hd : decodeDescriptor d with
  | ok i => cases h.symm.trans (descriptorWf_of_decode hd)
  | error e => cases e; rfl

theorem wordWf_iff (w : Word) :
    wordWf w = true ↔ (w.extractLsb' 12 4 : BitVec 4) = 0 ∧ (w.extractLsb' 28 4 : BitVec 4) = 0 := by
  have hfirst : (w.extractLsb' 0 16).extractLsb' 12 4 = w.extractLsb' 12 4 :=
    BitVec.extractLsb'_extractLsb'_of_le (by decide)
  have hsecond : (w.extractLsb' 16 16).extractLsb' 12 4 = w.extractLsb' 28 4 := by
    ext i hi
    simp [show 12 + i < 16 by omega, show 16 + (12 + i) = 28 + i by omega]
  simp [wordWf, descriptorWf, firstDescriptor, secondDescriptor, hfirst, hsecond]

/-- A launch whose format holds a reserved descriptor is refused at the boot (R152). -/
theorem step_of_reserved {s : State} (hb : s.booted = false)
    (h : ∃ b ∈ s.par.scanFormat, ∃ w ∈ b.words, wordWf w = false) : ∃ e, step s = .refused (.illFormedScanFormat e) := by
  obtain ⟨b, hbf, w, hw, hwf⟩ := h
  cases he : formatError s.par with
  | none =>
    obtain ⟨_, _, _, hwords, _⟩ := (formatError_none_iff s.par).mp he
    cases hwf.symm.trans (hwords b hbf w hw)
  | some e => exact ⟨e, by simp only [step, hb, bootStep, he]⟩

/-- Settles O5: a descriptor without reserved bits decodes by its bit 11, any other is an error; and no format that holds one
passes the checks. -/
theorem descriptorsDecodeByTheirTopBits : Obligations.DescriptorsDecodeByTheirTopBits := by
  refine ⟨fun d => ?_, fun s hb ⟨b, hbf, w, hw, hres⟩ => step_of_reserved hb ⟨b, hbf, w, hw, ?_⟩⟩
  · split <;> rename_i hd
    · rw [decodeDescriptor_of_wf (beq_iff_eq.mpr hd)]
      split <;> rfl
    · exact decodeDescriptor_of_not_wf (beq_eq_false_iff_ne.mpr hd)
  · rw [← Bool.not_eq_true, wordWf_iff]
    exact fun ⟨h0, h1⟩ => hres.elim (absurd h0) (absurd h1)

/-- Settles O1: each word's bits, evaluated. -/
theorem specWordsDecode : Obligations.SpecWordsDecode := by
  unfold Obligations.SpecWordsDecode
  decide

end Sys2Proof.Machine

/-! PROOFS. Vectors: their directions (O19), short vectors (O21), and the end point of a line; and the host scripts (O43,
O44). -/

namespace Sys2Proof.Machine

/-! ### Directions -/

/-- Settles O19: A set keeps both magnitudes; else equal signs keep the first, different ones the second (R273). -/
theorem directionBitsNameEightDirections : Obligations.DirectionBitsNameEightDirections :=
  fun _ _ => ⟨⟨rfl, rfl, rfl, rfl, rfl, rfl, rfl, rfl⟩, rfl, rfl⟩

/-! ### A command does not depend on DELTAX and DELTAY once its operands are read -/

/-- The state with other bytes in DELTAX and DELTAY. -/
def State.withDeltas (s : State) (dx dy : Byte) : State := s.withGdp { s.gdp with deltax := dx, deltay := dy }

/-- An access that writes neither register does the same whatever they hold, and whatever operands were read. -/
theorem access_withDeltas {m : Micro} (h : m.target ≠ some .deltax ∧ m.target ≠ some .deltay) (dx dy : Byte) (g : Gdp)
    (l : Latch) (s : State) :
    access m ({ l with gdp := g }, s.withDeltas dx dy) =
      ({ (access m (l, s)).1 with gdp := g }, (access m (l, s)).2.withDeltas dx dy) := by
  obtain ⟨_, mode, _, _⟩ := l
  obtain ⟨hx, hy⟩ := h
  cases m
  case put r v =>
    cases r
    case deltax => exact absurd rfl hx
    case deltay => exact absurd rfl hy
    all_goals rfl
  case bits r clear set =>
    cases r
    case deltax => exact absurd rfl hx
    case deltay => exact absurd rfl hy
    all_goals rfl
  all_goals cases mode <;> rfl

theorem accesses_withDeltas (dx dy : Byte) (g : Gdp) (ms : List Micro) :
    ∀ (l : Latch) (s : State), (∀ m ∈ ms, m.target ≠ some .deltax ∧ m.target ≠ some .deltay) →
      (accesses ms ({ l with gdp := g }, s.withDeltas dx dy)).2 = (accesses ms (l, s)).2.withDeltas dx dy := by
  induction ms with
  | nil => exact fun _ _ _ => rfl
  | cons m ms ih =>
    intro l s h
    obtain ⟨hm, hms⟩ := List.forall_mem_cons.mp h
    rw [accesses_cons, access_withDeltas hm]
    exact ih _ _ hms

/-- Reading operands fills the registers of the latch only. -/
theorem readOperands_eq (s : State) (rs : List Reg) :
    readOperands s rs = { Latch.empty with gdp := (readOperands s rs).gdp } := by
  have h : ∀ l : Latch, rs.foldl (latchReg s) l = { l with gdp := (rs.foldl (latchReg s) l).gdp } := by
    induction rs with
    | nil => exact fun _ => rfl
    | cons r rs ih => exact fun l => ih (latchReg s l r)
  exact h _

/-- Two commands that make the same accesses, none of them a write of DELTAX or DELTAY, differ by these only. -/
theorem runCommand_withDeltas {rs rs' : List Reg} {body body' : Gdp → State → List Micro} {s : State} {dx dy : Byte}
    (hm : body (readOperands (s.withDeltas dx dy) rs).gdp (s.withDeltas dx dy) = body' (readOperands s rs').gdp s)
    (ht : ∀ m ∈ body' (readOperands s rs').gdp s, m.target ≠ some .deltax ∧ m.target ≠ some .deltay) :
    runCommand rs body (s.withDeltas dx dy) = (runCommand rs' body' s).withDeltas dx dy := by
  have hl : readOperands (s.withDeltas dx dy) rs =
      { readOperands s rs' with gdp := (readOperands (s.withDeltas dx dy) rs).gdp } := by
    rw [readOperands_eq s rs']
    exact readOperands_eq _ rs
  simp only [runCommand, hm]
  rw [hl]
  exact accesses_withDeltas dx dy _ _ _ s ht

/-- The accesses of a line depend on the registers read by the cursor only. -/
theorem lineMicros_congr (sy sx a : BitVec 1) (m : Nat × Nat) {g g' : Gdp} {s s' : State}
    (hx : cursorX g = cursorX g') (hy : cursorY g = cursorY g') (hp : s.par = s'.par) :
    lineMicros sy sx a m g s = lineMicros sy sx a m g' s' := by
  simp only [lineMicros, vectorPoints, hx, hy, hp]

theorem vecMagnitudes_withDeltas (dx dy : BitVec 2) (s : State) :
    vecMagnitudes (readOperands (s.withDeltas (dx.setWidth 8) (dy.setWidth 8)) vecRegs).gdp = svecMagnitudes dx dy := by
  have hwidth : ∀ v : BitVec 2, (v.setWidth 8).toNat = v.toNat := fun v => BitVec.toNat_setWidth_of_le (by decide)
  exact congrArg₂ Prod.mk (hwidth dx) (hwidth dy)

/-- Settles O21: both make the accesses of one line, and none of these reads or writes DELTAX or DELTAY. -/
theorem shortVectorsAreVectors : Obligations.ShortVectorsAreVectors := by
  intro dx dy sy sx a s
  refine ⟨runCommand vecRegs (vecMicros sy sx a) (s.withDeltas (dx.setWidth 8) (dy.setWidth 8)), rfl, ?_⟩
  refine congrArg Host.Outcome.next (runCommand_withDeltas (s := s.withDeltas (dx.setWidth 8) (dy.setWidth 8)) ?_
    (commandShape_lineMicros ..).target_ne)
  rw [svecMicros, vecMicros, vecMagnitudes_withDeltas]
  exact lineMicros_congr sy sx a _ rfl rfl rfl

/-! ### The end point of a line -/

/-- With x the major axis, `n` steps advance x by `n` and y as often as keeps the accumulator from 0 to below dx (R270). -/
theorem xMajorPoints_getLast {dx dy : Nat} (stx sty : Int) (hd : dy ≤ dx) (n : Nat) :
    ∀ x y err : Int, 0 ≤ err → err < dx →
      ∃ j : Nat, (xMajorPoints dx dy stx sty n x y err).getLast?.getD (x, y) = (x + stx * n, y + sty * j) ∧
        0 ≤ err - n * dy + j * dx ∧ err - n * dy + j * dx < dx := by
  induction n with
  | zero => exact fun x y err h0 h1 => ⟨0, by simp [xMajorPoints], by simpa using h0, by simpa using h1⟩
  | succ n ih =>
    intro x y err h0 h1
    unfold xMajorPoints
    split
    · obtain ⟨j, hlast, hlo, hhi⟩ := ih (x + stx) (y + sty) (err - dy + dx) (by omega) (by omega)
      refine ⟨j + 1, ?_, by push_cast; linarith, by push_cast; linarith⟩
      rw [List.getLast?_cons, Option.getD_some, hlast]
      push_cast
      exact Prod.ext (by ring) (by ring)
    · obtain ⟨j, hlast, hlo, hhi⟩ := ih (x + stx) y (err - dy) (by omega) (by omega)
      refine ⟨j, ?_, by push_cast; linarith, by push_cast; linarith⟩
      rw [List.getLast?_cons, Option.getD_some, hlast]
      push_cast
      exact Prod.ext (by ring) rfl

/-- The loop with y the major axis is the other loop with the axes exchanged. -/
theorem yMajorPoints_eq_swap (dx dy : Nat) (stx sty : Int) (n : Nat) :
    ∀ x y err : Int, yMajorPoints dx dy stx sty n x y err = (xMajorPoints dy dx sty stx n y x err).map Prod.swap := by
  induction n with
  | zero => exact fun _ _ _ => rfl
  | succ n ih =>
    intro x y err
    unfold yMajorPoints xMajorPoints
    split <;> simp [ih]

/-- After as many steps as the major magnitude, the minor axis has advanced by its own (R276). -/
theorem xMajorPoints_end {dx dy : Nat} (stx sty : Int) (hd : dy ≤ dx) (x y : Int) :
    (xMajorPoints dx dy stx sty dx x y ((dx / 2 : Nat) : Int)).getLast?.getD (x, y) = (x + stx * dx, y + sty * dy) := by
  rcases Nat.eq_zero_or_pos dx with rfl | hpos
  · obtain rfl : dy = 0 := Nat.le_zero.mp hd
    simp [xMajorPoints]
  · obtain ⟨j, hlast, hlo, hhi⟩ := xMajorPoints_getLast stx sty hd dx x y ((dx / 2 : Nat) : Int) (by omega) (by omega)
    -- one minor step more or less would take the accumulator out of its range
    have hj : (j : Int) = dy := by
      have h1 : ((dx / 2 : Nat) : Int) < dx := by omega
      have h0 : (0 : Int) ≤ ((dx / 2 : Nat) : Int) := by omega
      nlinarith
    rw [hlast, hj]

/-- A line ends at its start plus its signed magnitudes (R276). -/
theorem linePoints_getLast? (x0 y0 : Int) (dx dy : Nat) (stx sty : Int) :
    (linePoints x0 y0 dx dy stx sty).getLast? = some (x0 + stx * dx, y0 + sty * dy) := by
  rw [linePoints, List.getLast?_cons]
  split
  · rw [max_eq_left ‹_›, xMajorPoints_end stx sty ‹_›]
  · have hd : dx ≤ dy := by omega
    have hend := xMajorPoints_end sty stx hd y0 x0
    rw [max_eq_right hd, yMajorPoints_eq_swap, List.getLast?_map]
    exact congrArg some ((Option.getD_map Prod.swap (y0, x0) _).trans (congrArg Prod.swap hend))


/-! ### The state after a vector command -/

/-- Plots change at most the framebuffer. -/
theorem accesses_plotAll (qs : List Point) :
    ∀ c : Latch × State, (accesses (plotAll qs) c).2 = c.2.withFb (accesses (plotAll qs) c).2.fb := by
  induction qs with
  | nil => exact fun _ => rfl
  | cons q qs ih =>
    intro c
    have hplot : (accesses (plotMicros q) c).2 = c.2.withFb (accesses (plotMicros q) c).2.fb := by
      rw [plotMicros_state]
      split
      · split <;> rfl
      · rfl
    rw [plotAll, List.flatMap_cons, accesses_append, ← plotAll, ih, hplot]
    rfl

/-- The accesses of a line: the framebuffer aside, the cursor left at the line's end and the busy clear (R276, R303). -/
theorem accesses_lineMicros (sy sx a : BitVec 1) (m : Nat × Nat) {g : Gdp} {s : State} (l : Latch)
    (hx : cursorX g = cursorX s.gdp) (hy : cursorY g = cursorY s.gdp) :
    ∃ fb, (accesses (lineMicros sy sx a m g s) (l, s)).2 = (s.withFb fb).withGdp (afterVector s sy sx a m) := by
  have hend : (vectorPoints g sy sx a m).getLastD ((cursorX g).toNat, (cursorY g).toNat) =
      (lineEndX s sy sx a m, lineEndY s sy sx a m) := by
    rw [List.getLastD_eq_getLast?, vectorPoints, linePoints_getLast?, hx, hy]
    rfl
  have hplot := accesses_plotAll (vectorPoints g sy sx a m) (l, s)
  simp only [lineMicros, hend]
  rw [List.append_assoc, accesses_append]
  generalize accesses (plotAll _) (l, s) = c at hplot ⊢
  have hpar : s.par = c.2.par := by rw [hplot]; rfl
  refine ⟨c.2.fb, ?_⟩
  rw [hpar, accesses_cursor_completion, hplot]
  rfl

/-- VEC draws the line of DELTAX and DELTAY: the framebuffer aside, it leaves the cursor at the line's end (R230, R276). -/
theorem exec_vec (sy sx a : BitVec 1) (s : State) :
    ∃ fb, exec (.vec sy sx a) s =
      .next ((s.withFb fb).withGdp (afterVector s sy sx a (s.gdp.deltax.toNat, s.gdp.deltay.toNat))) := by
  obtain ⟨hx, hy⟩ := readOperands_cursor s (.inl rfl)
  obtain ⟨fb, h⟩ := accesses_lineMicros sy sx a (s.gdp.deltax.toNat, s.gdp.deltay.toNat) (readOperands s vecRegs) hx hy
  exact ⟨fb, congrArg Host.Outcome.next h⟩

/-! ### The cursor written as two bytes each -/

/-- A word is its high and its low byte. -/
theorem append_bytes (v : BitVec 16) : (v.extractLsb' 8 8 ++ v.extractLsb' 0 8 : BitVec 16) = v :=
  BitVec.extractLsb'_append_extractLsb' (w := 8) (len := 8)

theorem cursor_cursorAfter (s : State) (x y : BitVec 16) :
    cursorX (cursorAfter s x y) = x ∧ cursorY (cursorAfter s x y) = y := ⟨append_bytes x, append_bytes y⟩

/-! ### Host scripts -/

/-- An idle CMD told to run takes the byte at the head of CMDQ and runs it (R301). -/
theorem runMoves_cmdRun {s t : State} {b : Byte} {q : List Byte} (ms : List Move) (hc : s.cmd = none)
    (hq : s.cmdq = b :: q) (h : exec (decodeCommand b) (s.withCmdq q) = .next t) :
    runMoves (.cmdRun :: ms) s = runMoves ms t := by
  rw [runMoves, show runMove .cmdRun s = .next t from (cmdRun_idle hc hq).trans h]

/-- CTRL1 with bits cleared and bits set, and the busy clear. -/
def modeBits (s : State) (clear set : Byte) : State :=
  s.withGdp { s.gdp with ctrl1 := (s.gdp.ctrl1 &&& ~~~clear) ||| set, status := busyCleared s }

theorem runCommand_bits (clear set : Byte) (s : State) :
    runCommand [] (fun _ s => .bits .ctrl1 clear set :: completion s.par) s = modeBits s clear set :=
  accesses_completion (access (.bits .ctrl1 clear set) (readOperands s [], s))

theorem exec_pen (s : State) : exec .pen s = .next (modeBits s 0x00 0x02) :=
  congrArg Host.Outcome.next (runCommand_bits 0x00 0x02 s)

theorem exec_eraser (s : State) : exec .eraser s = .next (modeBits s 0x02 0x00) :=
  congrArg Host.Outcome.next (runCommand_bits 0x02 0x00 s)

theorem exec_pendown (s : State) : exec .pendown s = .next (modeBits s 0x00 0x01) :=
  congrArg Host.Outcome.next (runCommand_bits 0x00 0x01 s)

/-- A command that changes bits of CTRL1, then PENDOWN, both enqueued and run. -/
theorem runMoves_then_pendown {s : State} {b clear set : Byte} (hc : s.cmd = none) (hq : s.cmdq = [])
    (hb : ∀ u, exec (decodeCommand b) u = .next (modeBits u clear set)) :
    runMoves [.hostCmd b, .hostCmd 0x02, .cmdRun, .cmdRun] s =
      .next (modeBits (modeBits (s.withCmdq []) clear set) 0x00 0x01) := by
  have hqueue : (hostCmd 0x02 (hostCmd b s)).cmdq = [b, 0x02] := by simp [hostCmd, hq]
  refine (runMoves_cmdRun (s := hostCmd 0x02 (hostCmd b s)) [.cmdRun] hc hqueue (hb _)).trans ?_
  exact runMoves_cmdRun [] hc rfl (exec_pendown _)

/-- The low two bits of CTRL1 after PEN or ERASER, then PENDOWN (R127, R291). -/
theorem modeOf_scripts (c : Byte) :
    modeOf ((((c &&& ~~~0x00) ||| 0x02) &&& ~~~0x00) ||| 0x01) = .draw ∧
      modeOf ((((c &&& ~~~0x02) ||| 0x00) &&& ~~~0x00) ||| 0x01) = .erase := by
  have hlow : ∀ v : BitVec 2,
      (((v &&& ~~~0b00) ||| 0b10) &&& ~~~0b00) ||| 0b01 = 0b11 ∧
        (((v &&& ~~~0b10) ||| 0b00) &&& ~~~0b00) ||| 0b01 = 0b01 := by decide
  obtain ⟨hdraw, herase⟩ := hlow (c.extractLsb' 0 2)
  simp only [modeOf, BitVec.extractLsb'_or, BitVec.extractLsb'_and]
  constructor
  · exact if_pos hdraw
  · exact (if_neg (herase.trans_ne (by decide))).trans (if_pos herase)

/-- Settles O43: the register scripts are their writes; the mode scripts run PEN or ERASER, then PENDOWN. -/
theorem hostScriptsSetTheirRegisters : Obligations.HostScriptsSetTheirRegisters := by
  intro s x y dx dy
  refine ⟨⟨_, rfl, rfl, append_bytes x, append_bytes y, fun r hr => ?_⟩, rfl, fun hc hq => ⟨?_, ?_⟩⟩
  · simp only [cursorRegs, List.mem_cons, List.not_mem_nil, or_false, not_or] at hr
    obtain ⟨h1, h2, h3, h4⟩ := hr
    simp only [setReg_gdp]
    rw [Gdp.get_set_ne _ _ h4, Gdp.get_set_ne _ _ h3, Gdp.get_set_ne _ _ h2, Gdp.get_set_ne _ _ h1]
  · exact ⟨_, runMoves_then_pendown hc hq exec_pen, (modeOf_scripts _).1, rfl, rfl⟩
  · exact ⟨_, runMoves_then_pendown hc hq exec_eraser, (modeOf_scripts _).2, rfl, rfl⟩

/-- The sign bit of a delta: 1 is a decrement (R274). -/
def signBit (d : Int) : BitVec 1 := if d < 0 then 1 else 0

theorem decodeCommand_linetoByte (dx dy : Int) : decodeCommand (linetoByte dx dy) = .vec (signBit dy) (signBit dx) 1 := by
  unfold linetoByte signBit
  split <;> split <;> rfl

theorem stepOf_signBit (d : Int) : stepOf (signBit d) * (d.natAbs : Int) = d := by
  unfold signBit
  split
  · change -1 * (d.natAbs : Int) = d
    omega
  · change 1 * (d.natAbs : Int) = d
    omega

theorem delta_toNat {d : Int} (h0 : -255 ≤ d) (h1 : d ≤ 255) : (BitVec.ofNat 8 d.natAbs).toNat = d.natAbs := by
  rw [BitVec.toNat_ofNat]
  omega

/-! With A set no axis is forced, so each axis ends its own delta away. -/

theorem lineEndX_signBit {s : State} {sy : BitVec 1} {m : Nat × Nat} {d : Int} (h : m.1 = d.natAbs) :
    lineEndX s sy (signBit d) 1 m = (cursorX s.gdp).toNat + d := by
  change _ + stepOf (signBit d) * (m.1 : Int) = _
  rw [h, stepOf_signBit]

theorem lineEndY_signBit {s : State} {sx : BitVec 1} {m : Nat × Nat} {d : Int} (h : m.2 = d.natAbs) :
    lineEndY s (signBit d) sx 1 m = (cursorY s.gdp).toNat + d := by
  change _ + stepOf (signBit d) * (m.2 : Int) = _
  rw [h, stepOf_signBit]

/-- Settles O44: the command byte is a VEC whose magnitudes are the deltas' and whose sign bits are their signs. -/
theorem linetoMovesByItsDeltas : Obligations.LinetoMovesByItsDeltas := by
  intro s dx dy hc hq hx0 hx1 hy0 hy1
  let u := s.withDeltas (BitVec.ofNat 8 dx.natAbs) (BitVec.ofNat 8 dy.natAbs)
  have hqueue : (hostCmd (linetoByte dx dy) u).cmdq = [linetoByte dx dy] := by simp [hostCmd, u, State.withDeltas, hq]
  obtain ⟨fb, h⟩ := exec_vec (signBit dy) (signBit dx) 1 (u.withCmdq [])
  rw [← decodeCommand_linetoByte] at h
  refine ⟨_, runMoves_cmdRun (s := hostCmd (linetoByte dx dy) u) [] hc hqueue h, rfl, ?_, ?_⟩
  · exact (cursor_cursorAfter _ _ _).1.trans (congrArg (BitVec.ofInt 16) (lineEndX_signBit (delta_toNat hx0 hx1)))
  · exact (cursor_cursorAfter _ _ _).2.trans (congrArg (BitVec.ofInt 16) (lineEndY_signBit (delta_toNat hy0 hy1)))

end Sys2Proof.Machine

/-! PROOFS. BUILD (O7) and the checks of the scan format before it (O8), the steps of the sequencer and of the timing
generator (O29 to O32), the refused format change (O45), and the step after a table word is placed (O47). -/

namespace Sys2Proof.Machine

/-! ### BUILD -/

/-- A list repeated has the list's own entries in each repetition. -/
theorem getElem?_flatten_replicate {α : Type} (l : List α) {k : Nat} (hk : k < l.length) :
    ∀ {n rep : Nat}, rep < n → (List.replicate n l).flatten[rep * l.length + k]? = l[k]? := by
  intro n
  induction n with
  | zero => exact fun h => absurd h (Nat.not_lt_zero _)
  | succ n ih =>
    intro rep hrep
    rw [List.replicate_succ, List.flatten_cons]
    cases rep with
    | zero => rw [Nat.zero_mul, Nat.zero_add, List.getElem?_append_left hk]
    | succ rep =>
      have hpos : (rep + 1) * l.length + k = l.length + (rep * l.length + k) := by ring
      rw [hpos, List.getElem?_append_right (Nat.le_add_right ..), Nat.add_sub_cancel_left,
        ih (Nat.lt_of_succ_lt_succ hrep)]

/-- The words of the blocks before come first, then the block's own, then those of the blocks after (R151). -/
theorem flatWords_append_cons (pre : ScanFormat) (b : PatternBlock) (post : ScanFormat) :
    flatWords (pre ++ b :: post) = flatWords pre ++ (blockWords b ++ flatWords post) := by
  simp only [flatWords, List.flatMap_append, List.flatMap_cons]

/-- Word `k` of repetition `rep` lies inside the block. -/
theorem repetition_lt {n len rep k : Nat} (hrep : rep < n) (hk : k < len) : rep * len + k < len * n :=
  calc rep * len + k < (rep + 1) * len := by rw [Nat.succ_mul]; omega
    _ ≤ n * len := Nat.mul_le_mul_right len hrep
    _ = len * n := Nat.mul_comm n len

/-- The word at the position the nested loops of BUILD reach (R151). -/
theorem flatWords_getElem? (pre : ScanFormat) (b : PatternBlock) (post : ScanFormat) {rep k : Nat}
    (hrep : rep < b.count) (hk : k < b.words.length) :
    (flatWords (pre ++ b :: post))[formatLength pre + (rep * b.words.length + k)]? = b.words[k]? := by
  have hin : rep * b.words.length + k < (blockWords b).length := by
    rw [blockWords_length]
    exact repetition_lt hrep hk
  rw [flatWords_append_cons, ← flatWords_length, List.getElem?_append_right (Nat.le_add_right ..),
    Nat.add_sub_cancel_left, List.getElem?_append_left hin]
  exact getElem?_flatten_replicate b.words hk hrep

theorem build_seq (f : ScanFormat) (s : State) :
    (build f s).sync.seq = flatWords f ++ s.sync.seq.drop (formatLength f) := by
  rw [← flatWords_length]
  rfl

theorem build_seqLen (f : ScanFormat) (s : State) : (build f s).sync.seqLen = formatLength f := flatWords_length f

/-- BUILD writes inside the new sequence what the format flattens to. -/
theorem build_seq_of_lt {f : ScanFormat} {n : Nat} (s : State) (h : n < formatLength f) :
    (build f s).sync.seq[n]? = (flatWords f)[n]? := by
  rw [build_seq, List.getElem?_append_left (by rwa [flatWords_length])]

/-- BUILD keeps the entries from SEQ_LEN on. -/
theorem build_seq_of_le {f : ScanFormat} {n : Nat} (s : State) (h : formatLength f ≤ n) :
    (build f s).sync.seq[n]? = s.sync.seq[n]? := by
  rw [build_seq, List.getElem?_append_right (by rwa [flatWords_length]), flatWords_length, List.getElem?_drop,
    Nat.add_sub_of_le h]

/-- A position reached inside a block of the format is inside its sequence. -/
theorem position_lt_formatLength (pre : ScanFormat) (b : PatternBlock) (post : ScanFormat) {rep k : Nat}
    (hrep : rep < b.count) (hk : k < b.words.length) :
    formatLength pre + (rep * b.words.length + k) < formatLength (pre ++ b :: post) := by
  have hin := repetition_lt hrep hk
  simp only [formatLength, List.map_append, List.map_cons, List.sum_append, List.sum_cons]
  omega

/-- Settles O7: the new sequence is the flattened format with the old entries behind it, and a position the nested loops
reach lies in its block's repetition. -/
theorem buildFlattensTheFormat : Obligations.BuildFlattensTheFormat := by
  intro f s
  refine ⟨build_seqLen f s, rfl, rfl, ?_, fun n hn => build_seq_of_le s hn, fun hwf => ?_⟩
  · rintro pre b post rep k rfl hrep hk
    rw [Nat.add_assoc, build_seq_of_lt s (position_lt_formatLength pre b post hrep hk)]
    exact flatWords_getElem? pre b post hrep hk
  · obtain ⟨_, _, hlen, _, _⟩ := (formatError_none_iff _).mp hwf
    rw [build_seqLen]
    exact hlen

/-! ### The checks of the scan format -/

/-- The cycles of a descriptor word are those of its two DUR fields, bits 9:0 and 25:16 (R120, R152). -/
theorem wordCycles_eq (bias : Nat) (w : Word) :
    wordCycles bias w =
      ((w.extractLsb' 0 10 : BitVec 10).toNat + bias) + ((w.extractLsb' 16 10 : BitVec 10).toNat + bias) := by
  have hfirst : (w.extractLsb' 0 16).extractLsb' 0 10 = w.extractLsb' 0 10 :=
    BitVec.extractLsb'_extractLsb'_of_le (by decide)
  have hsecond : (w.extractLsb' 16 16).extractLsb' 0 10 = w.extractLsb' 16 10 := by
    ext i hi
    simp [show i < 16 by omega]
  simp only [wordCycles, descriptorDur, firstDescriptor, secondDescriptor, hfirst, hsecond]

theorem sum_map_blockWords (g : Word → Nat) (b : PatternBlock) :
    ((blockWords b).map g).sum = (b.words.map g).sum * b.count := by
  simp [blockWords, List.map_flatten, List.sum_flatten, Nat.mul_comm]

/-- The cycles of a format are those of the words of its flattened sequence (R152 item 5). -/
theorem sum_wordCycles_flatWords (bias : Nat) (f : ScanFormat) :
    ((flatWords f).map (wordCycles bias)).sum = formatCycles bias f := by
  induction f with
  | nil => rfl
  | cons b f ih =>
    simp only [flatWords, formatCycles] at ih
    simp only [flatWords, formatCycles, List.flatMap_cons, List.map_append, List.sum_append, List.map_cons,
      List.sum_cons, sum_map_blockWords, ih]

/-- The boot refuses exactly the formats that fail a check (R355). -/
theorem step_refuses_iff_formatError {s : State} (hb : s.booted = false) :
    (∃ e, step s = .refused (.illFormedScanFormat e)) ↔ formatError s.par ≠ none := by
  simp only [step, hb, bootStep]
  cases formatError s.par <;> simp

/-- Settles O8: the boot's check is the conjunction of the five, each in the terms of the raw bits. -/
theorem illFormedFormatsAreRefused : Obligations.IllFormedFormatsAreRefused := by
  intro s hb
  simp only [step_refuses_iff_formatError hb, ne_eq, formatError_none_iff, formatLength, wordWf_iff,
    ← sum_wordCycles_flatWords, ← wordCycles_eq]

/-! ### The pulses -/

/-- Past a descriptor only TG changes (R159). -/
theorem nextHalf_eq (s : State) :
    nextHalf s = { s with
      tg := if s.tg.half = 0#1 then { s.tg with half := 1#1 } else { s.tg with word := none } } := by
  unfold nextHalf
  split <;> rfl

/-- Settles O29: both pulses drive the level and record the pulse, PULSE_DS then signals data start, and TG goes on. -/
theorem pulsesDriveTheLevel : Obligations.PulsesDriveTheLevel := by
  intro lvl dur s
  constructor
  · exact congrArg Host.Outcome.next (nextHalf_eq (drivePulse lvl dur s))
  · have hhist : (signalDataStart (drivePulse lvl dur s)).history =
        s.history ++ [.syncPulse lvl (dur.toNat + s.par.durationBias), .lineActive] := List.append_assoc ..
    rw [← hhist]
    exact congrArg Host.Outcome.next (nextHalf_eq (signalDataStart (drivePulse lvl dur s)))

/-! ### The sync channel and its completion handler -/

/-- SYNC changes at most the channel and the timing generator's FIFO (R156). -/
theorem syncMove_eq (s : State) : syncMove s = { s with tg := (syncMove s).tg, sync := (syncMove s).sync } := by
  dsimp only [syncMove]
  split <;> rfl

theorem syncEnabled_iff (s : State) :
    syncEnabled s = true ↔ s.sync.running = true ∧ s.tg.fifo.length < s.par.fifoDepth := by
  simp only [syncEnabled, Bool.and_eq_true, decide_eq_true_eq]

/-- Settles O30: SYNC is enabled when the channel runs and TGF has room; its move is one word. -/
theorem syncMovesOneWord : Obligations.SyncMovesOneWord := by
  intro s
  refine ⟨fun hold => ?_, fun hrun hroom => ?_⟩
  · have hoff : ¬ syncEnabled s = true := by
      rw [syncEnabled_iff]
      rintro ⟨hrun, hroom⟩
      rcases hold with hstop | hfull
      · cases hstop.symm.trans hrun
      · exact Nat.not_lt.mpr hfull hroom
    exact congrArg Host.Outcome.next (if_neg hoff)
  · have hstep : syncStep s = syncMove s := if_pos ((syncEnabled_iff s).mpr ⟨hrun, hroom⟩)
    rw [syncMove_eq, syncMove_tg, syncMove_sync] at hstep
    exact congrArg Host.Outcome.next hstep

/-- Settles O31: the handler's step is its one action while a completion is pending, and a hold otherwise. -/
theorem syncIrqRestartsTheChannel : Obligations.SyncIrqRestartsTheChannel := by
  refine fun s => ⟨fun hidle => ?_, fun hpending => ?_⟩
  · exact congrArg Host.Outcome.next (if_neg (by simp [hidle]))
  · exact congrArg Host.Outcome.next (if_pos hpending)

/-! ### The timing generator's fetch -/

/-- TG without a word fetches (R157). -/
theorem tgStep_fetches {s : State} (hw : s.tg.word = none) : tgStep s = .next (tgFetch s) := by
  simp only [tgStep, hw]

theorem tgFetch_empty {s : State} (hf : s.tg.fifo = []) : tgFetch s = s := by simp only [tgFetch, hf]

theorem tgFetch_cons {s : State} {w : Word} {ws : List Word} (hf : s.tg.fifo = w :: ws) :
    tgFetch s = s.withTg { s.tg with fifo := ws, word := some w, half := 0 } := by
  simp only [tgFetch, hf]
  rfl

/-- Settles O32: without a word TG's step is the fetch, which holds on an empty TGF and else takes its head. -/
theorem timingGeneratorFetches : Obligations.TimingGeneratorFetches := by
  refine fun s hw => ⟨fun hf => ?_, fun w ws hf => ?_⟩
  · exact (tgStep_fetches hw).trans (congrArg Host.Outcome.next (tgFetch_empty hf))
  · exact (tgStep_fetches hw).trans (congrArg Host.Outcome.next (tgFetch_cons hf))

/-! ### A format change after the boot -/

/-- Settles O45: the scheduled move is the request, and that move is refused. -/
theorem formatChangeIsRefused : Obligations.FormatChangeIsRefused :=
  fun _ _ _ hb hs => step_scheduled hb hs

/-! ### A placed table word -/

/-- A table word that decodes is a command byte, or a pulse descriptor without reserved bits. -/
theorem decodeTableWord_some {nbits w : Nat} {i : Instr} (h : decodeTableWord nbits w = some i) :
    (nbits = 8 ∧ decodeCommand (BitVec.ofNat 8 w) = i) ∨
      (nbits = 16 ∧ decodeDescriptor (BitVec.ofNat 16 w) = .ok i) := by
  unfold decodeTableWord at h
  split at h
  · exact .inl ⟨‹_›, Option.some.inj h⟩
  split at h
  · split at h
    · exact .inr ⟨‹_›, by rw [← Option.some.inj h]; assumption⟩
    · cases h
  · cases h

/-- The first half of a placed word is the descriptor placed. -/
theorem firstDescriptor_zero_append (d : Descriptor) : firstDescriptor (0#16 ++ d) = d :=
  BitVec.extractLsb'_append_eq_right

theorem step_placeCommand (s : State) (b : Byte) :
    step (placeCommand s b) = exec (decodeCommand b) { s with booted := true, cmd := none } :=
  (step_scheduled (s := placeCommand s b) rfl rfl).trans
    (cmdRun_idle (s := (placeCommand s b).withSched s.sched) rfl rfl)

theorem step_placeDescriptor {s : State} {d : Descriptor} {i : Instr} (hi : decodeDescriptor d = .ok i) :
    step (placeDescriptor s d) =
      exec i { s with booted := true, tg := { s.tg with word := some (0#16 ++ d), half := 0 } } := by
  have hd : decodeDescriptor (tgDescriptor 0#1 (0#16 ++ d)) = .ok i := by
    rw [tgDescriptor, if_pos rfl, firstDescriptor_zero_append, hi]
  exact (step_scheduled (s := placeDescriptor s d) rfl rfl).trans
    (tgStep_decoded (s := (placeDescriptor s d).withSched s.sched) rfl hd)

/-- Settles O47: a byte is placed where CMD runs it next, a descriptor where TG does. -/
theorem placedWordRunsNext : Obligations.PlacedWordRunsNext := by
  intro s nbits w i h
  rcases decodeTableWord_some h with ⟨rfl, rfl⟩ | ⟨rfl, hi⟩
  · exact .inl ⟨rfl, step_placeCommand s _⟩
  · exact .inr ⟨rfl, step_placeDescriptor hi⟩

end Sys2Proof.Machine

/-! PROOFS. The video pipeline: the tally of lines (O58), the DATA invocation (O33 to O35), the refill's reads (O38), and
the bytes CMD may write (O50). -/

namespace Sys2Proof.Machine

/-! ### The DATA invocation -/

/-- The DATA invocation advances the line count and takes one line-active event (R171). -/
@[simp] theorem dataInvoke_video (s : State) :
    (dataInvoke s).video = { s.video with
      lineActivePending := s.video.lineActivePending - 1
      outSel := outBuffer s.video.lineCounter
      lineCounter := s.video.lineCounter + 1
      frameComplete := false } := by
  dsimp only [dataInvoke]
  split <;> rfl

@[simp] theorem dataInvoke_history (s : State) :
    (dataInvoke s).history =
      s.history ++ [.outLine (lineBytes (lineBuffer s.video (outBuffer s.video.lineCounter)))] := by
  dsimp only [dataInvoke]
  split <;> rfl

/-- Every 4th line starts a refill of the buffer not handed out, from the display page (R171). -/
@[simp] theorem dataInvoke_refill (s : State) :
    (dataInvoke s).refill =
      if refillDue s.video.lineCounter = true then
        { s.refill with
          active := true
          buf := ~~~outBuffer s.video.lineCounter
          src := rowSource (displayPage s) (refillRow s.video.lineCounter)
          k := 0 }
      else s.refill := by
  dsimp only [dataInvoke]
  split <;> rfl

/-- A DATA invocation changes only the data channel, the refill and the history (R171). -/
theorem dataInvoke_eq (s : State) :
    dataInvoke s = { s with
      video := (dataInvoke s).video, refill := (dataInvoke s).refill, history := (dataInvoke s).history } := by
  dsimp only [dataInvoke]
  split <;> rfl

theorem dataStep_of_enabled {s : State} (he : dataEnabled s = true) : dataStep s = dataInvoke s := if_pos he

theorem dataStep_of_not_enabled {s : State} (he : ¬ dataEnabled s = true) : dataStep s = s := if_neg he

/-! ### The tally of lines -/

/-- Lines and flags as the history shows them: what `LineInv` says of a booted state. -/
def LinesTallied (s : State) : Prop :=
  s.history.countP Event.isLineActive = s.video.lineActivePending + s.history.countP Event.isOutLine ∧
    s.video.frameComplete = frameFlag s.history ∧
    s.video.lineCounter = BitVec.ofNat 10 (linesSinceSync s.history)

theorem lineInv_iff (s : State) : LineInv s ↔ (s.booted = true → LinesTallied s) := Iff.rfl

/-! What one more event makes of the flag and of the count of lines. -/

@[simp] theorem frameFlag_concat_syncPulse (h : List Event) (lvl : BitVec 1) (d : Nat) :
    frameFlag (h ++ [.syncPulse lvl d]) = frameFlag h := List.foldl_concat ..

@[simp] theorem frameFlag_concat_lineActive (h : List Event) : frameFlag (h ++ [.lineActive]) = frameFlag h :=
  List.foldl_concat ..

@[simp] theorem frameFlag_concat_frameSync (h : List Event) : frameFlag (h ++ [.frameSync]) = true :=
  List.foldl_concat ..

@[simp] theorem frameFlag_concat_outLine (h : List Event) (bs : List Byte) : frameFlag (h ++ [.outLine bs]) = false :=
  List.foldl_concat ..

@[simp] theorem linesSinceSync_concat_syncPulse (h : List Event) (lvl : BitVec 1) (d : Nat) :
    linesSinceSync (h ++ [.syncPulse lvl d]) = linesSinceSync h := List.foldl_concat ..

@[simp] theorem linesSinceSync_concat_lineActive (h : List Event) :
    linesSinceSync (h ++ [.lineActive]) = linesSinceSync h := List.foldl_concat ..

@[simp] theorem linesSinceSync_concat_frameSync (h : List Event) : linesSinceSync (h ++ [.frameSync]) = 0 :=
  List.foldl_concat ..

@[simp] theorem linesSinceSync_concat_outLine (h : List Event) (bs : List Byte) :
    linesSinceSync (h ++ [.outLine bs]) = linesSinceSync h + 1 := List.foldl_concat ..

/-! Each operation that records an event keeps the tally. -/

theorem drivePulse_linesTallied {s : State} (lvl : BitVec 1) (dur : BitVec 10) (hs : LinesTallied s) :
    LinesTallied (drivePulse lvl dur s) := by
  obtain ⟨hlines, hflag, hcount⟩ := hs
  refine ⟨?_, ?_, ?_⟩
  · simpa [drivePulse, Event.isLineActive, Event.isOutLine] using hlines
  · simpa [drivePulse] using hflag
  · simpa [drivePulse] using hcount

/-- One more line-active event is recorded and pends. -/
theorem signalDataStart_linesTallied {s : State} (hs : LinesTallied s) : LinesTallied (signalDataStart s) := by
  obtain ⟨hlines, hflag, hcount⟩ := hs
  refine ⟨?_, ?_, ?_⟩
  · simp [signalDataStart, Event.isLineActive, Event.isOutLine, hlines, Nat.add_right_comm]
  · simpa [signalDataStart] using hflag
  · simpa [signalDataStart] using hcount

/-- The line served no longer pends; it clears the flag and is counted. -/
theorem dataInvoke_linesTallied {s : State} (hpos : 0 < s.video.lineActivePending) (hs : LinesTallied s) :
    LinesTallied (dataInvoke s) := by
  obtain ⟨hlines, -, hcount⟩ := hs
  refine ⟨?_, ?_, ?_⟩
  · have hactive : (dataInvoke s).history.countP Event.isLineActive = s.history.countP Event.isLineActive := by
      simp [Event.isLineActive]
    have hserved : (dataInvoke s).history.countP Event.isOutLine = s.history.countP Event.isOutLine + 1 := by
      simp [Event.isOutLine]
    rw [hactive, hserved, hlines, dataInvoke_video]
    dsimp only
    omega
  · simp
  · simp [hcount, BitVec.ofNat_add]

/-- A FrameSync sets the flag and starts the count anew; it serves no line. -/
theorem syncIrq_linesTallied {s : State} (hs : LinesTallied s) : LinesTallied (syncIrq s) := by
  obtain ⟨hlines, -, -⟩ := hs
  refine ⟨?_, ?_, ?_⟩
  · simpa [syncIrq, Event.isLineActive, Event.isOutLine] using hlines
  · simp [syncIrq]
  · simp [syncIrq]

/-! The other operations touch neither the counts nor the history. -/

theorem nextHalf_linesTallied {s : State} (hs : LinesTallied s) : LinesTallied (nextHalf s) := by
  unfold nextHalf
  split <;> exact hs

theorem tgFetch_linesTallied {s : State} (hs : LinesTallied s) : LinesTallied (tgFetch s) := by
  unfold tgFetch
  split <;> exact hs

theorem syncMove_linesTallied {s : State} (hs : LinesTallied s) : LinesTallied (syncMove s) := by
  rw [syncMove_eq]
  exact hs

theorem lutpMove_linesTallied {s : State} (hs : LinesTallied s) : LinesTallied (lutpMove s) := by
  dsimp only [lutpMove]
  rw [lineWrite_only]
  exact hs

theorem tgStep_linesTallied {s t : State} (h : tgStep s = .next t) (hs : LinesTallied s) : LinesTallied t := by
  rcases tgStep_cases h with ⟨_, rfl⟩ | ⟨_, d, _, _, ⟨_, rfl⟩ | ⟨_, rfl⟩⟩
  · exact tgFetch_linesTallied hs
  · exact nextHalf_linesTallied (drivePulse_linesTallied _ _ hs)
  · exact nextHalf_linesTallied (signalDataStart_linesTallied (drivePulse_linesTallied _ _ hs))

/-- An enabled DATA has a line-active event to serve. -/
theorem pending_of_dataEnabled {s : State} (he : dataEnabled s = true) : 0 < s.video.lineActivePending :=
  of_decide_eq_true (Bool.and_eq_true_iff.mp he).1

/-- Every move keeps the tally; an agent that is not enabled holds. -/
theorem runMove_linesTallied {m : Move} {s t : State} (h : runMove m s = .next t) (hs : LinesTallied s) :
    LinesTallied t := by
  rcases runMove_cases h with ⟨_, rfl⟩ | ⟨_, rfl⟩ | ⟨_, rfl⟩ | ⟨_, rfl⟩ | ⟨_, h⟩ | h
  · unfold syncStep
    split
    · exact syncMove_linesTallied hs
    · exact hs
  · unfold syncIrqStep
    split
    · exact syncIrq_linesTallied hs
    · exact hs
  · unfold dataStep
    split
    · exact dataInvoke_linesTallied (pending_of_dataEnabled ‹_›) hs
    · exact hs
  · unfold lutpStep
    split
    · exact lutpMove_linesTallied hs
    · exact hs
  · exact tgStep_linesTallied h hs
  · rw [h]
    exact hs

/-- Settles O58: the boot leaves no line pending and an empty history; every move keeps the tally. -/
theorem linesAreCountedAndNoneIsLost : Obligations.LinesAreCountedAndNoneIsLost := by
  intro s t hs h
  rw [lineInv_iff] at hs ⊢
  rcases step_cases h with ⟨_, _, rfl⟩ | ⟨hb, h⟩
  · exact fun _ => ⟨rfl, rfl, rfl⟩
  · rw [takeMove_only s] at h
    exact fun _ => runMove_linesTallied h (hs hb)

/-! ### The line buffer and the row of a line, in natural numbers -/

/-- The buffer a line is handed out of is its number's bit 2 (R172). -/
theorem outBuffer_eq (l : BitVec 10) : outBuffer l = BitVec.ofNat 1 (l.toNat / 4) := by
  rw [outBuffer, BitVec.extractLsb', Nat.shiftRight_eq_div_pow]

theorem outBuffer_toNat (l : BitVec 10) : (outBuffer l).toNat = l.toNat / 4 % 2 := by
  rw [outBuffer_eq, BitVec.toNat_ofNat]

theorem not_outBuffer_eq (l : BitVec 10) : ~~~outBuffer l = BitVec.ofNat 1 (1 - l.toNat / 4 % 2) := by
  apply BitVec.eq_of_toNat_eq
  rw [BitVec.toNat_not, outBuffer_toNat, BitVec.toNat_ofNat]
  omega

theorem refillDue_iff (l : BitVec 10) : refillDue l = true ↔ l.toNat % 4 = 0 := by
  simp [refillDue, BitVec.toNat_eq]

theorem refillRow_toNat (l : BitVec 10) : (refillRow l).toNat = (l.toNat / 4 + 1) % 256 := by
  simp [refillRow, Nat.shiftRight_eq_div_pow]

theorem displayPage_toNat (s : State) : (displayPage s).toNat = s.pagesel.toNat / 64 % 4 := by
  simp [displayPage, Nat.shiftRight_eq_div_pow]

theorem lineBuffer_outBuffer (v : Video) (l : BitVec 10) :
    lineBuffer v (outBuffer l) = if l.toNat / 4 % 2 = 0 then v.lb0 else v.lb1 := by
  have hzero : outBuffer l = 0#1 ↔ l.toNat / 4 % 2 = 0 := by rw [BitVec.toNat_eq, outBuffer_toNat, BitVec.toNat_ofNat]
  simp only [lineBuffer, hzero]

/-- DATA is enabled with a line-active event pending, unless an active refill fills the buffer of its line or the line
would start another (R171, R174). -/
theorem dataEnabled_iff (s : State) :
    dataEnabled s = true ↔
      0 < s.video.lineActivePending ∧
        ¬ (s.refill.active = true ∧
          (s.refill.buf.toNat = s.video.lineCounter.toNat / 4 % 2 ∨ s.video.lineCounter.toNat % 4 = 0)) := by
  rw [dataEnabled, Bool.and_eq_true, decide_eq_true_eq, Bool.not_eq_true', ← Bool.not_eq_true, Bool.and_eq_true,
    Bool.or_eq_true, beq_iff_eq, BitVec.toNat_eq, outBuffer_toNat, refillDue_iff]

/-- Settles O33: an enabled invocation, its buffer, row and next line read as natural numbers. -/
theorem dataServesOneLine : Obligations.DataServesOneLine := by
  rintro s l rfl hpending hfree
  have hstep : dataStep s = dataInvoke s := dataStep_of_enabled ((dataEnabled_iff s).mpr ⟨hpending, hfree⟩)
  refine ⟨dataInvoke s, congrArg Host.Outcome.next hstep, dataInvoke_eq s, ?_, ?_, ?_⟩
  · rw [dataInvoke_history, lineBuffer_outBuffer]
  · have hnext : s.video.lineCounter + 1 = BitVec.ofNat 10 ((s.video.lineCounter.toNat + 1) % 1024) := by
      apply BitVec.eq_of_toNat_eq
      simp [BitVec.toNat_add]
    rw [dataInvoke_video, outBuffer_eq, hnext]
  · simp only [dataInvoke_refill, refillDue_iff, not_outBuffer_eq, rowSource, displayPage_toNat, refillRow_toNat]

/-- Settles O34: each of the three causes is the negation of what enables DATA. -/
theorem dataHoldsOnAnUnfinishedRefill : Obligations.DataHoldsOnAnUnfinishedRefill := by
  rintro s l rfl hold
  refine congrArg Host.Outcome.next (dataStep_of_not_enabled ?_)
  rw [dataEnabled_iff]
  rintro ⟨hpending, hfree⟩
  rcases hold with hnone | hbusy
  · exact hpending.ne' hnone
  · exact hfree hbusy

/-- The number of a line that follows a refill line by 4 to 7, modulo 1024 (R172). -/
theorem laterLine_div {l : BitVec 10} {j : Nat} (hdue : refillDue l = true) (hj : j < 4) :
    (l + BitVec.ofNat 10 (4 + j)).toNat / 4 = (l.toNat / 4 + 1) % 256 := by
  have hmod := (refillDue_iff l).mp hdue
  rw [BitVec.toNat_add, BitVec.toNat_ofNat]
  omega

/-- Settles O35: four to seven lines on, bit 2 of the line number is flipped and a quarter of it is the refill's row. -/
theorem refillFeedsTheNextRow : Obligations.RefillFeedsTheNextRow := by
  rintro s j l he hdue hj rfl
  have hdiv := laterLine_div hdue hj
  rw [dataStep_of_enabled he, dataInvoke_refill, if_pos hdue]
  refine ⟨rfl, rfl, ?_, ?_⟩
  · show ~~~outBuffer s.video.lineCounter = _
    rw [not_outBuffer_eq, outBuffer_eq, hdiv]
    apply BitVec.eq_of_toNat_eq
    rw [BitVec.toNat_ofNat, BitVec.toNat_ofNat]
    omega
  · have hrow : refillRow s.video.lineCounter = BitVec.ofNat 8 ((s.video.lineCounter.toNat / 4 + 1) % 256) := by
      rw [← refillRow_toNat, BitVec.ofNat_toNat, BitVec.setWidth_eq]
    rw [hdiv, hrow]

/-! ### What a refill reads -/

/-- The word a refill works on is one it holds, or one of the sixteen of its row (R201, R202). -/
theorem refillWordAt_withFb {s : State} {m : Memory} (hk : s.refill.k < 512)
    (hrow : ∀ j, j < 16 → wordRead m (s.refill.src.toNat + j) = wordRead s.fb (s.refill.src.toNat + j)) :
    refillWordAt (s.withFb m) = refillWordAt s := by
  have hword : fbLoad (s.withFb m) (s.refill.src.toNat + s.refill.k / 32) =
      fbLoad s (s.refill.src.toNat + s.refill.k / 32) := hrow _ (by omega)
  unfold refillWordAt
  rw [State.withFb_refill, hword]

/-- Settles O38: the framebuffer enters a LUTP step by the word the refill works on only. -/
theorem refillReadsOnlyItsRow : Obligations.RefillReadsOnlyItsRow := by
  intro s m hk hrow
  unfold lutpStep
  rw [State.withFb_refill]
  split
  · dsimp only [lutpMove]
    rw [refillWordAt_withFb hk hrow]
    rfl
  · rfl

/-! ### The bytes CMD may write -/

/-- Access by access, a CMD step stores only to the page its command has read (R294). -/
theorem cmdStep_outside {s : State} (hs : DrawPageInv s) {a : Nat} (ha : ¬ inPage (drawPage s) a) :
    memRead (cmdStep s).fb a = memRead s.fb a := by
  unfold cmdStep
  split
  · unfold cmdStart
    split <;> rfl
  · rfl
  · rfl
  · rfl
  · rename_i m ms l hc
    obtain ⟨k, hk, hu⟩ := hs _ l hc
    exact access_outside (c := (l, s)) hu hk ha

/-- A whole command stores only to the draw page (R180). -/
theorem runCommand_outside (i : Instr) (s : State) {a : Nat} (ha : ¬ inPage (drawPage s) a) :
    memRead (runCommand (commandRegs i) (commandMicros i) s).fb a = memRead s.fb a :=
  have hreads := (commandShape_commandMicros i (readOperands s (commandRegs i)).gdp s).readsPageFirst
  accesses_outside _ .unknown (_, s) (hreads .unknown) trivial a ha

/-- Settles O50: both moves of CMD store only to the page the command has read, which is the draw page. -/
theorem commandStepsStayInTheDrawPage : Obligations.CommandStepsStayInTheDrawPage := by
  rintro m s t ⟨_, _, hpage⟩ hm h a ha
  rcases runMove_fb_cases h with hfb | ⟨_, rfl | h⟩
  · rw [hfb]
  · exact cmdStep_outside hpage ha
  · rcases cmdRun_cases h with rfl | ⟨i, q, _, rfl⟩
    · rfl
    · exact runCommand_outside i (s.withCmdq q) ha

end Sys2Proof.Machine

/-! PROOFS. The color lookup: one LUTP step (O36) and a whole refill (O37). -/

namespace Sys2Proof.Machine

/-! ### One LUTP step -/

theorem lutpStep_of_active {s : State} (ha : s.refill.active = true) : lutpStep s = lutpMove s := if_pos ha

theorem lutpStep_of_not_active {s : State} (ha : s.refill.active = false) : lutpStep s = s := if_neg (by simp [ha])

/-- A LUTP step advances the refill by one byte, and byte 511 ends it (R204). -/
@[simp] theorem lutpMove_refill (s : State) :
    (lutpMove s).refill = { s.refill with
      word := refillWordAt s, k := s.refill.k + 1, active := decide (s.refill.k + 1 ≠ 512) } := rfl

/-- A LUTP step stores one byte of one line buffer (R203). -/
@[simp] theorem lutpMove_video (s : State) :
    (lutpMove s).video = lineWrite s.video s.refill.buf s.refill.k
      (lut s.tables ((refillWordAt s).getLsbD (31 - s.refill.k % 32))) := rfl

/-- A LUTP step changes only the line buffers and the refill. -/
theorem lutpMove_eq (s : State) :
    lutpMove s = { s with video := (lutpMove s).video, refill := (lutpMove s).refill } := rfl

/-- Settles O36: the byte stored is the one `memRead_lineWrite` reads back, and all other bytes are as before. -/
theorem lookupWritesOneByte : Obligations.LookupWritesOneByte := by
  intro s
  refine ⟨fun ha => congrArg _ (lutpStep_of_not_active ha), fun ha => ?_⟩
  exact ⟨lutpMove s, refillWordAt s, congrArg _ (lutpStep_of_active ha), rfl, lutpMove_eq s, lutpMove_refill s,
    lineWrite_only _ _ _ _, fun b a => memRead_lineWrite _ _ b _ a _⟩

/-! ### A whole refill -/

/-- The colour byte the lookup law gives position `k` of the row under refill (R202, R205). -/
def rowColour (s : State) (k : Nat) : Byte :=
  lut s.tables ((fbLoad s (s.refill.src.toNat + k / 32)).getLsbD (31 - k % 32))

/-- `t` is `s` with the first `n` bytes of its row looked up; inside a word, the refill holds that word. -/
structure LookedUp (s : State) (n : Nat) (t : State) : Prop where
  state_eq : t = { s with video := t.video, refill := t.refill }
  video_eq : t.video = { s.video with lb0 := t.video.lb0, lb1 := t.video.lb1 }
  refill_eq : t.refill = { s.refill with word := t.refill.word, k := n, active := decide (n ≠ 512) }
  word_eq : n % 32 ≠ 0 → t.refill.word = fbLoad s (s.refill.src.toNat + n / 32)
  bytes : ∀ (b : BitVec 1) (a : Nat), memRead (lineBuffer t.video b) a =
    if b = s.refill.buf ∧ a < n then rowColour s a else memRead (lineBuffer s.video b) a

/-- Before its first step a refill has looked up nothing. -/
theorem LookedUp.zero {s : State} (ha : s.refill.active = true) (hk : s.refill.k = 0) : LookedUp s 0 s where
  state_eq := rfl
  video_eq := rfl
  refill_eq := by rw [show decide (0 ≠ 512) = s.refill.active from ha.symm, ← hk]
  word_eq h := absurd rfl h
  bytes b a := (if_neg fun h => Nat.not_lt_zero a h.2).symm

/-- The word in use at byte `n` is the row's word `n / 32`, fetched now or held since its first byte (R202, R204). -/
theorem LookedUp.refillWordAt_eq {s t : State} {n : Nat} (h : LookedUp s n t) :
    refillWordAt t = fbLoad s (s.refill.src.toNat + n / 32) := by
  have hfb : t.fb = s.fb := by rw [h.state_eq]
  unfold refillWordAt fbLoad
  rw [h.refill_eq, hfb]
  split
  · rfl
  · exact h.word_eq ‹_›

/-- One LUTP step looks up one byte more. -/
theorem LookedUp.succ {s t : State} {n : Nat} (h : LookedUp s n t) (hn : n < 512) :
    LookedUp s (n + 1) (lutpStep t) := by
  have hk : t.refill.k = n := by rw [h.refill_eq]
  have hbuf : t.refill.buf = s.refill.buf := by rw [h.refill_eq]
  have htables : t.tables = s.tables := by rw [h.state_eq]
  have hactive : t.refill.active = true := by rw [h.refill_eq]; exact decide_eq_true (by omega)
  rw [lutpStep_of_active hactive]
  refine ⟨?_, ?_, ?_, fun hmod => ?_, fun b a => ?_⟩
  · rw [lutpMove_eq, h.state_eq]
  · rw [lutpMove_video, lineWrite_only, h.video_eq]
  · rw [lutpMove_refill, hk, h.refill_eq]
  · have hdiv : (n + 1) / 32 = n / 32 := by omega
    rw [lutpMove_refill, hdiv]
    exact h.refillWordAt_eq
  · rw [lutpMove_video, memRead_lineWrite, h.bytes, hk, hbuf, htables, h.refillWordAt_eq]
    by_cases hnew : b = s.refill.buf ∧ a = n
    · obtain ⟨rfl, rfl⟩ := hnew
      rw [if_pos ⟨rfl, rfl⟩, if_pos ⟨rfl, Nat.lt_succ_self a⟩]
      rfl
    · have hold : (b = s.refill.buf ∧ a < n + 1) ↔ (b = s.refill.buf ∧ a < n) :=
        and_congr_right fun hb => by
          have hne : a ≠ n := fun ha => hnew ⟨hb, ha⟩
          omega
      simp only [if_neg hnew, hold]

/-- `m` steps look up `m` bytes more. -/
theorem LookedUp.add {s : State} (m : Nat) {n : Nat} {t : State} (h : LookedUp s n t) (hn : n + m ≤ 512) :
    LookedUp s (n + m) (times lutpStep m t) := by
  induction m generalizing n t with
  | zero => exact h
  | succ m ih =>
    have hrest := ih (h.succ (by omega)) (by omega)
    rwa [Nat.add_right_comm, Nat.add_assoc] at hrest

/-- Settles O37: after 512 steps every byte of the row is looked up, and nothing else has changed. -/
theorem refillIsTheElementwiseLookup : Obligations.RefillIsTheElementwiseLookup := by
  intro s ha hk
  have h := (LookedUp.zero ha hk).add 512 (Nat.le_refl _)
  refine ⟨_, rfl, ?_, h.state_eq, h.video_eq, fun k hlt => ?_, fun b a hother => ?_⟩
  · rw [h.refill_eq]
    rfl
  · rw [h.bytes, if_pos ⟨rfl, by omega⟩]
    rfl
  · rw [h.bytes, if_neg]
    rintro ⟨hb, hlt⟩
    exact hother.elim (· hb) (by omega)

end Sys2Proof.Machine

/-! PROOFS. The low commands: the clears of the draw page (O13, O14), the mode bits (O10), XYRST (O11) and NOP (O12). -/

namespace Sys2Proof.Machine

/-! ### The clear of the draw page -/

/-- The framebuffer after the clear of the draw page. -/
def clearedFb (s : State) : Memory := (accesses clearPage (Latch.empty, s)).2.fb

/-- The clear of the draw page changes only the framebuffer (R225). -/
theorem accesses_clearPage_eq (s : State) : (accesses clearPage (Latch.empty, s)).2 = s.withFb (clearedFb s) := by
  rw [clearedFb]
  exact (accesses_clearPage (Latch.empty, s)).1

theorem cleared_clearedFb (s : State) : Cleared s (clearedFb s) := by
  obtain ⟨-, hbytes⟩ := accesses_clearPage (Latch.empty, s)
  rw [← clearedFb] at hbytes
  exact ⟨fun a ha => (hbytes a).trans (if_pos ha), fun a ha => (hbytes a).trans (if_neg ha)⟩

/-- Clears of words neither read nor change the registers. -/
theorem accesses_clearWords_withGdp (ns : List Nat) (l : Latch) (s : State) (g : Gdp) :
    accesses (ns.map fun w => .clearWord (BitVec.ofNat 12 w)) (l, s.withGdp g) =
      ((accesses (ns.map fun w => .clearWord (BitVec.ofNat 12 w)) (l, s)).1,
        (accesses (ns.map fun w => .clearWord (BitVec.ofNat 12 w)) (l, s)).2.withGdp g) := by
  induction ns generalizing s with
  | nil => rfl
  | cons n ns ih => exact ih (fbStore s (fbIndex l.page (BitVec.ofNat 12 n)) 0)

/-- The memory a clear leaves is the same whatever the registers hold. -/
theorem accesses_clearPage_withGdp (s : State) (g : Gdp) :
    (accesses clearPage (Latch.empty, s.withGdp g)).2 = (s.withFb (clearedFb s)).withGdp g := by
  rw [← accesses_clearPage_eq, clearPage, accesses_cons, accesses_cons]
  generalize List.range pageWords = ns
  exact congrArg Prod.snd (accesses_clearWords_withGdp ns (access .latchPage (Latch.empty, s)).1 s g)

/-- The registers with the cursor at (0, 0). -/
def zeroedCursor (g : Gdp) : Gdp := { g with xmsb := 0, xlsb := 0, ymsb := 0, ylsb := 0 }

theorem accesses_zeroCursor (c : Latch × State) :
    accesses zeroCursor c = (c.1, c.2.withGdp (zeroedCursor c.2.gdp)) := by
  simp [zeroCursor, putX, putY, access, setReg, Gdp.set, State.withGdp, zeroedCursor]

/-- The register writes of RESET: its parameters, then the cursor (R228). -/
theorem accesses_reset_registers (l : Latch) (s : State) (c1 c2 cs : Byte) :
    accesses ([.put .ctrl1 c1, .put .ctrl2 c2, .put .csize cs] ++ zeroCursor) (l, s) =
      (l, s.withGdp { zeroedCursor s.gdp with ctrl1 := c1, ctrl2 := c2, csize := cs }) := by
  rw [accesses_append, accesses_cons, accesses_cons, accesses_cons, accesses_nil, accesses_zeroCursor]
  rfl

/-- The busy clear of a command that has changed the framebuffer and the registers only. -/
theorem accesses_completion_withGdp {c : Latch × State} {s : State} {m : Memory} {g : Gdp}
    (h : c.2 = (s.withFb m).withGdp g) :
    (accesses (completion s.par) c).2 = (s.withFb m).withGdp { g with status := g.status &&& ~~~s.par.busyMask } := by
  have hpar : s.par = c.2.par := by rw [h, State.withGdp_par, State.withFb_par]
  rw [hpar, accesses_completion, h]
  rfl

/-- A clear command: register writes `pre` that make the registers `g`, the clear of the draw page, the busy clear. -/
theorem runCommand_clear {body : Gdp → State → List Micro} {s : State} (pre : List Micro) (g : Gdp)
    (hbody : ∀ r, body r s = pre ++ clearPage ++ completion s.par)
    (hpre : accesses pre (Latch.empty, s) = (Latch.empty, s.withGdp g)) :
    runCommand [] body s = (s.withFb (clearedFb s)).withGdp { g with status := g.status &&& ~~~s.par.busyMask } := by
  have hlatch : readOperands s [] = Latch.empty := rfl
  rw [runCommand, hbody, hlatch, accesses_append, accesses_append, hpre]
  exact accesses_completion_withGdp (accesses_clearPage_withGdp s g)

/-- Settles O13: before the clear CLS writes nothing, CLSXY the cursor, RESET its parameters and the cursor. -/
theorem clearCommandsClearTheDrawPage : Obligations.ClearCommandsClearTheDrawPage := by
  intro s
  refine ⟨clearedFb s, cleared_clearedFb s, ?_, ?_, ?_⟩
  · exact congrArg Host.Outcome.next (runCommand_clear [] s.gdp (fun _ => by rw [List.nil_append, clsMicros]) rfl)
  · exact congrArg Host.Outcome.next (runCommand_clear zeroCursor _ (fun _ => rfl) (accesses_zeroCursor _))
  · exact congrArg Host.Outcome.next (runCommand_clear _ _ (fun _ => rfl) (accesses_reset_registers _ s _ _ _))

/-! ### The pixels of a cleared page -/

/-- Words are equal when their four bytes are. -/
theorem wordRead_congr {m m' : Memory} {w : Nat} (h : ∀ a, a / 4 = w → memRead m a = memRead m' a) :
    wordRead m w = wordRead m' w := by
  rw [wordRead, wordRead, h (4 * w) (by omega), h (4 * w + 1) (by omega), h (4 * w + 2) (by omega),
    h (4 * w + 3) (by omega)]

theorem wordRead_nil (w : Nat) : wordRead [] w = 0 := by
  simp only [wordRead, memRead]
  rfl

/-- The bytes of a word lie in its page and in no other (R81). -/
theorem inPage_iff_of_word {p : BitVec 2} {w : BitVec 12} {a : Nat} (ha : a / 4 = fbIndex p w) (q : BitVec 2) :
    inPage q a ↔ p = q := by
  rw [inPage, ← BitVec.toNat_inj]
  unfold fbIndex at ha
  omega

/-- A word of a cleared framebuffer: 0 on the draw page, as before on the others. -/
theorem Cleared.wordRead_eq {s : State} {m : Memory} (h : Cleared s m) (p : BitVec 2) (w : BitVec 12) :
    wordRead m (fbIndex p w) = if p = drawPage s then 0 else wordRead s.fb (fbIndex p w) := by
  obtain ⟨hin, hout⟩ := h
  split
  case isTrue hp =>
    calc wordRead m (fbIndex p w)
        = wordRead [] (fbIndex p w) := wordRead_congr fun a ha => hin a ((inPage_iff_of_word ha _).mpr hp)
      _ = 0 := wordRead_nil _
  case isFalse hp =>
    exact wordRead_congr fun a ha => hout a (mt (inPage_iff_of_word ha _).mp hp)

/-- Settles O14: a pixel is a bit of a word of its page. -/
theorem clearUnsetsEveryPixel : Obligations.ClearUnsetsEveryPixel := by
  intro s
  obtain ⟨m, hm, hcls, -, -⟩ := clearCommandsClearTheDrawPage s
  refine ⟨_, hcls, fun p x y => ?_⟩
  change (wordRead m (fbIndex p (pixWord x y))).getLsbD (pixBit x) = _
  rw [hm.wordRead_eq]
  split
  · exact BitVec.getLsbD_zero
  · rfl

/-! ### The mode bits, the cursor and NOP -/

theorem exec_penup (s : State) : exec .penup s = .next (modeBits s 0x01 0x00) :=
  congrArg Host.Outcome.next (runCommand_bits 0x01 0x00 s)

theorem modeBits_set (s : State) (v : Byte) :
    modeBits s 0x00 v = s.withGdp { s.gdp with ctrl1 := s.gdp.ctrl1 ||| v, status := busyCleared s } := by
  rw [modeBits, show ~~~(0x00 : Byte) = BitVec.allOnes 8 from rfl, BitVec.and_allOnes]

theorem modeBits_clear (s : State) (v : Byte) :
    modeBits s v 0x00 = s.withGdp { s.gdp with ctrl1 := s.gdp.ctrl1 &&& ~~~v, status := busyCleared s } := by
  simp only [modeBits, BitVec.ofNat_eq_ofNat, BitVec.or_zero]

/-- Settles O10: each of the four sets or clears its bit of CTRL1. -/
theorem penCommandsChangeOneModeBit : Obligations.PenCommandsChangeOneModeBit := by
  intro s
  simp only [exec_pen, exec_eraser, exec_pendown, exec_penup, modeBits_set, modeBits_clear, and_self]

/-- Settles O11: the accesses of XYRST are the cursor's writes with zeros, then the completion. -/
theorem xyrstZeroesTheCursor : Obligations.XyrstZeroesTheCursor := fun s =>
  congrArg Host.Outcome.next (accesses_cursor_completion 0 0 (readOperands s [], s))

theorem runCommand_nop (s : State) :
    runCommand [] nopMicros s = s.withGdp { s.gdp with status := busyCleared s } :=
  accesses_completion (readOperands s [], s)

/-- Settles O12: each NOP form runs the completion only. -/
theorem nopOnlyClearsTheBusyBits : Obligations.NopOnlyClearsTheBusyBits := by
  intro s _ _
  have hnop : exec .nop0B s = .next (s.withGdp { s.gdp with status := busyCleared s }) :=
    congrArg Host.Outcome.next (runCommand_nop s)
  exact ⟨hnop, hnop, hnop⟩

end Sys2Proof.Machine

/-! PROOFS. What plots do to the framebuffer, and the characters: their advance (O22), their glyph's points (O23), their
codes (O24) and their scales (O25). -/

namespace Sys2Proof.Machine

/-! ### Pixels of a written word -/

/-- A page and a word of it are found in the index of the word (R81, R82). -/
theorem fbIndex_inj {p p' : BitVec 2} {w w' : BitVec 12} (h : fbIndex p w = fbIndex p' w') : p = p' ∧ w = w' := by
  unfold fbIndex at h
  exact ⟨BitVec.eq_of_toNat_eq (by omega), BitVec.eq_of_toNat_eq (by omega)⟩

theorem pixBit_lt (x : BitVec 9) : pixBit x < 32 := by
  unfold pixBit
  omega

/-- A word of a page written back with the bit of one pixel made `b` changes that pixel only (R292). -/
theorem pixel_wordWrite {m : Memory} {p : BitVec 2} {x : BitVec 9} {y : BitVec 8} {v : Word} {b : Bool}
    (hv : ∀ n, v.getLsbD n = if n = pixBit x then b else (wordRead m (fbIndex p (pixWord x y))).getLsbD n)
    (p' : BitVec 2) (x' : BitVec 9) (y' : BitVec 8) :
    pixel (wordWrite m (fbIndex p (pixWord x y)) v) p' x' y' =
      if p' = p ∧ x' = x ∧ y' = y then b else pixel m p' x' y' := by
  obtain ⟨-, hinj, -⟩ := pixelAddressingIsABijection
  simp only [pixel, wordRead_wordWrite]
  by_cases hword : fbIndex p' (pixWord x' y') = fbIndex p (pixWord x y)
  · obtain ⟨rfl, hw⟩ := fbIndex_inj hword
    rw [if_pos hword, hv, hw]
    by_cases hbit : pixBit x' = pixBit x
    · rw [if_pos hbit, if_pos ⟨rfl, hinj x' x y' y hw hbit⟩]
    · rw [if_neg hbit, if_neg]
      rintro ⟨-, rfl, -⟩
      exact hbit rfl
  · rw [if_neg hword, if_neg]
    rintro ⟨rfl, rfl, rfl⟩
    exact hword rfl

/-! ### One plot -/

/-- The points on the screen are the pixels (R290). -/
theorem exists_pixel_of_onScreen {q : Point} (h : onScreen q = true) :
    ∃ (x : BitVec 9) (y : BitVec 8), q = ((x.toNat : Int), (y.toNat : Int)) := by
  obtain ⟨hx0, hx1, hy0, hy1⟩ := (onScreen_iff q).mp h
  refine ⟨BitVec.ofInt 9 q.1, BitVec.ofInt 8 q.2, Prod.ext ?_ ?_⟩ <;> simp only [BitVec.toNat_ofInt] <;> omega

theorem onScreen_pixel (x : BitVec 9) (y : BitVec 8) : onScreen ((x.toNat : Int), (y.toNat : Int)) = true := by
  rw [onScreen_iff]
  omega

theorem hits_singleton (x x' : BitVec 9) (y y' : BitVec 8) :
    hits [((x.toNat : Int), (y.toNat : Int))] x' y' = decide (x' = x ∧ y' = y) := by
  simp [hits, BitVec.toNat_inj]

/-- A point outside the screen is no pixel. -/
theorem hits_singleton_of_not_onScreen {q : Point} (h : ¬ onScreen q = true) (x : BitVec 9) (y : BitVec 8) :
    hits [q] x y = false := by
  simp only [hits, List.mem_singleton, decide_eq_false_iff_not]
  rintro rfl
  exact h (onScreen_pixel x y)

/-- An unchanged framebuffer has points plotted when the mode is inert or none of the points is a pixel. -/
theorem Draws.of_fb_eq {s t : State} {qs : List Point} (hfb : t.fb = s.fb)
    (h : modeOf s.gdp.ctrl1 = .inert ∨ ∀ x y, hits qs x y = false) : Draws s t qs := by
  refine ⟨fun p x y => ?_, fun a _ => by rw [hfb]⟩
  have hsame : ∀ old, drawn (modeOf s.gdp.ctrl1) (hits qs x y) old = old := fun old => by
    rcases h with h | h
    · rw [h, drawn]
    · rw [h]
      cases modeOf s.gdp.ctrl1 <;> rfl
  rw [hfb, hsame, ite_self]

/-- The store of the word of one pixel, with its bit made what the mode says, plots this pixel (R291, R292). -/
theorem Draws.of_fbStore {s : State} {x : BitVec 9} {y : BitVec 8} {v : Word} (b : Bool)
    (hdrawn : ∀ hit old, drawn (modeOf s.gdp.ctrl1) hit old = if hit then b else old)
    (hv : ∀ n, v.getLsbD n =
      if n = pixBit x then b else (fbLoad s (fbIndex (drawPage s) (pixWord x y))).getLsbD n) :
    Draws s (fbStore s (fbIndex (drawPage s) (pixWord x y)) v) [((x.toNat : Int), (y.toNat : Int))] := by
  refine ⟨fun p x' y' => ?_, fun a ha => ?_⟩
  · rw [fbStore_fb, pixel_wordWrite hv, hits_singleton, hdrawn]
    by_cases hp : p = drawPage s <;> simp [hp]
  · have hword : a / 4 ≠ fbIndex (drawPage s) (pixWord x y) := fun h =>
      ha ⟨_, List.mem_singleton_self _, onScreen_pixel x y, by simpa using h⟩
    rw [fbStore_fb, memRead_wordWrite, if_neg hword]

/-- One plot plots its point (R290). -/
theorem draws_plotMicros (q : Point) (c : Latch × State) : Draws c.2 (accesses (plotMicros q) c).2 [q] := by
  rw [plotMicros_state]
  split
  case isFalse hq => exact .of_fb_eq rfl (.inr (hits_singleton_of_not_onScreen hq))
  case isTrue hq =>
    obtain ⟨x, y, rfl⟩ := exists_pixel_of_onScreen hq
    simp only [BitVec.ofInt_natCast, BitVec.ofNat_toNat, BitVec.setWidth_eq]
    split <;> rename_i hmode
    · exact .of_fb_eq rfl (.inl hmode)
    · refine .of_fbStore true (fun hit _ => by rw [hmode]; cases hit <;> rfl) fun n => ?_
      rw [setBit_getLsbD _ n (pixBit_lt x)]
      by_cases h : n = pixBit x <;> simp [h]
    · refine .of_fbStore false (fun hit _ => by rw [hmode]; cases hit <;> rfl) fun n => ?_
      rw [clearBit_getLsbD _ n (pixBit_lt x)]
      by_cases h : n = pixBit x <;> simp [h]

/-! ### Plots one after another -/

theorem hits_cons (q : Point) (qs : List Point) (x : BitVec 9) (y : BitVec 8) :
    hits (q :: qs) x y = (hits [q] x y || hits qs x y) := by
  simp [hits, ← Bool.decide_or]

theorem drawn_drawn (m : DrawMode) (hit hit' old : Bool) :
    drawn m hit' (drawn m hit old) = drawn m (hit || hit') old := by
  cases m <;> cases hit <;> cases hit' <;> rfl

/-- Points plotted after a plot that has changed the framebuffer only. -/
theorem Draws.cons {s u : State} {m : Memory} {q : Point} {qs : List Point} (hq : Draws s (s.withFb m) [q])
    (hqs : Draws (s.withFb m) u qs) : Draws s u (q :: qs) := by
  obtain ⟨hpixel, hbytes⟩ := hq
  obtain ⟨hpixel', hbytes'⟩ := hqs
  refine ⟨fun p x y => ?_, fun a ha => ?_⟩
  · rw [hpixel', hpixel, hits_cons q qs, ← drawn_drawn]
    by_cases hp : p = drawPage s
    · rw [if_pos hp, if_pos hp]
      exact if_pos hp
    · rw [if_neg hp, if_neg hp]
      exact if_neg hp
  · obtain ⟨hout, hout'⟩ : ¬ storedAt (drawPage s) [q] a ∧ ¬ storedAt (drawPage s) qs a := by
      simpa [storedAt, -not_exists, not_or] using ha
    exact (hbytes' a hout').trans (hbytes a hout)

/-- One plot changes at most the framebuffer. -/
theorem accesses_plotMicros (q : Point) (c : Latch × State) :
    (accesses (plotMicros q) c).2 = c.2.withFb (accesses (plotMicros q) c).2.fb := by
  simpa [plotAll] using accesses_plotAll [q] c

/-- The plots of a list of points plot exactly these points (R290). -/
theorem draws_plotAll (qs : List Point) (c : Latch × State) : Draws c.2 (accesses (plotAll qs) c).2 qs := by
  induction qs generalizing c with
  | nil => exact .of_fb_eq rfl (.inr fun _ _ => rfl)
  | cons q qs ih =>
    have hq := draws_plotMicros q c
    have hqs := ih (accesses (plotMicros q) c)
    rw [accesses_plotMicros] at hq hqs
    rw [plotAll, List.flatMap_cons, accesses_append]
    exact hq.cons hqs

/-! ### The state after a character command -/

/-- The framebuffer after the plots of a character. -/
def characterFb (a : Byte) (s : State) : Memory :=
  (accesses (plotAll (charPoints s.par s.tables a s.gdp)) (readOperands s charRegs, s)).2.fb

/-- The accesses of a character depend on the registers it reads only (R235). -/
theorem charMicros_readOperands (a : Byte) (s : State) :
    charMicros a (readOperands s charRegs).gdp s = charMicros a s.gdp s := rfl

/-- A character command plots, then advances the cursor and clears the busy bits (R250, R257). -/
theorem runCommand_char (a : Byte) (s : State) :
    runCommand charRegs (charMicros a) s = (s.withFb (characterFb a s)).withGdp (afterCharacter s) := by
  have hplot := accesses_plotAll (charPoints s.par s.tables a s.gdp) (readOperands s charRegs, s)
  rw [← characterFb] at hplot
  rw [runCommand, charMicros_readOperands, charMicros, List.append_assoc, accesses_append]
  generalize accesses (plotAll _) _ = c at hplot ⊢
  have hgdp : s.gdp = c.2.gdp := by rw [hplot, State.withFb_gdp]
  have hpar : s.par = c.2.par := by rw [hplot, State.withFb_par]
  rw [hgdp, hpar, accesses_advance_completion, hplot]
  rfl

theorem draws_characterFb (a : Byte) (s : State) :
    Draws s ((s.withFb (characterFb a s)).withGdp (afterCharacter s)) (charPoints s.par s.tables a s.gdp) :=
  draws_plotAll (charPoints s.par s.tables a s.gdp) (readOperands s charRegs, s)

theorem exec_char20 (a : Byte) (s : State) :
    exec (.char20 a) s = .next ((s.withFb (characterFb a s)).withGdp (afterCharacter s)) :=
  congrArg Host.Outcome.next (runCommand_char a s)

theorem exec_char40 (a : Byte) (s : State) :
    exec (.char40 a) s = .next ((s.withFb (characterFb a s)).withGdp (afterCharacter s)) :=
  congrArg Host.Outcome.next (runCommand_char a s)

theorem exec_cursor (s : State) :
    exec .cursor s = .next ((s.withFb (characterFb 0x80 s)).withGdp (afterCharacter s)) :=
  congrArg Host.Outcome.next (runCommand_char 0x80 s)

/-- Settles O22: the three commands run one renderer, which leaves its plots in the framebuffer and `afterCharacter` in the
registers. -/
theorem charactersAdvanceTheCursor : Obligations.CharactersAdvanceTheCursor := fun g s =>
  ⟨⟨_, exec_char20 g s⟩, ⟨_, exec_char40 g s⟩, ⟨_, exec_cursor s⟩⟩

/-! ### The points of a glyph -/

/-- The points of a character: one for each column, x-repeat, row and y-repeat of a set font bit (R250, R251). -/
theorem mem_charPoints {p : Params} {t : Tables} {a : Byte} {g : Gdp} {q : Point} :
    q ∈ charPoints p t a g ↔
      g.ctrl1.getLsbD 0 = true ∧
        ∃ c i r j : Nat, c < 5 ∧ i < scaleX g.csize ∧ r < 8 ∧ j < scaleY g.csize ∧
          (fontByte t (glyphIndex a) c).getLsbD r = true ∧
          q = glyphPoint p g.ctrl2 (cursorX g).toNat (cursorY g).toNat (c * scaleX g.csize + i)
            (r * scaleY g.csize + j) := by
  rw [charPoints, List.mem_ite_nil_right, drawEnabled]
  simp only [List.mem_flatMap, List.mem_range, List.mem_ite_nil_right, List.mem_map]
  constructor
  · rintro ⟨hen, c, hc, i, hi, r, hr, hbit, j, hj, rfl⟩
    exact ⟨hen, c, i, r, j, hc, hi, hr, hj, hbit, rfl⟩
  · rintro ⟨hen, c, i, r, j, hc, hi, hr, hj, hbit, rfl⟩
    exact ⟨hen, c, hc, i, hi, r, hr, hbit, j, hj, rfl⟩

/-- The place of a font bit: its secondary offset `v`, skewed, and the axes by the orientation (R254, R255). -/
theorem eq_glyphPoint_iff {p : Params} {ctrl2 : Byte} {x0 y0 : Int} {u n : Nat} {q : Point} :
    q = glyphPoint p ctrl2 x0 y0 u n ↔
      ∃ v : Int, v = n + (if ctrl2.getLsbD 2 = true then skewOffset p u else 0) ∧
        q = if ctrl2.getLsbD 3 = true then (x0 + v, y0 + u) else (x0 + u, y0 + v) := by
  have hskew : (n : Int) + (if ctrl2.getLsbD 2 = true then skewOffset p u else 0) =
      if skewed ctrl2 = true then n + skewOffset p u else n := by rw [add_ite, add_zero, skewed]
  rw [exists_eq_left, hskew, glyphPoint, vertical]

/-- Settles O23: a command's plots are of the points the loops list, and these are the places of the set font bits. -/
theorem charactersDrawTheirGlyph : Obligations.CharactersDrawTheirGlyph := by
  refine ⟨fun g s => ⟨?_, ?_, ?_⟩, fun p t a g q => ?_⟩
  · exact ⟨_, exec_char20 g s, draws_characterFb g s⟩
  · exact ⟨_, exec_char40 g s, draws_characterFb g s⟩
  · exact ⟨_, exec_cursor s, draws_characterFb 0x80 s⟩
  · simp only [mem_charPoints, eq_glyphPoint_iff]

/-! ### Glyph codes -/

/-- A field of a byte as a number. -/
theorem toNat_field (b : Byte) (start len : Nat) : (b.extractLsb' start len).toNat = b.toNat / 2 ^ start % 2 ^ len := by
  rw [BitVec.extractLsb'_toNat, Nat.shiftRight_eq_div_pow]

/-- A code outside the font draws what the space draws (R252). -/
theorem characterFb_of_out_of_range {a : Byte} (h : a.toNat < 0x20 ∨ 0x80 < a.toNat) (s : State) :
    characterFb a s = characterFb 0x20 s := by
  have hindex : glyphIndex a = glyphIndex 0x20 := if_neg (by omega)
  rw [characterFb, characterFb, charPoints, charPoints, hindex]

/-- A byte that decodes to an instruction decodes to a well-formed one. -/
theorem decodeCommand_wf (b : Byte) : (decodeCommand b).wf = true := (encodeOfDecodeIsTheWord (.command b) _ rfl).2

/-- Settles O24: the code enters a character through its font index only, and a decoded CHAR has the top bits of its row. -/
theorem glyphCodesOutOfRangeAreTheSpace : Obligations.GlyphCodesOutOfRangeAreTheSpace := by
  refine ⟨fun a => rfl, fun a s ha => ?_, fun b g h => ?_⟩
  · rw [exec_char20, exec_char20, characterFb_of_out_of_range ha]
  · have hwf := decodeCommand_wf b
    rcases h with h | h <;> rw [h] at hwf
    · have htop : g.toNat / 32 % 8 = 1 := (toNat_field g 5 3).symm.trans (congrArg _ (beq_iff_eq.mp hwf))
      omega
    · have htop : g.toNat / 64 % 4 = 1 := (toNat_field g 6 2).symm.trans (congrArg _ (beq_iff_eq.mp hwf))
      omega

/-! ### Scales -/

/-- Settles O25: a nibble is 0 as a bit vector when it is 0 as a number. -/
theorem scalesReadZeroAsSixteen : Obligations.ScalesReadZeroAsSixteen := by
  intro c
  have hhigh : (c.extractLsb' 4 4).toNat = c.toNat / 16 := (toNat_field c 4 4).trans (by omega)
  have hlow : (c.extractLsb' 0 4).toNat = c.toNat % 16 := (toNat_field c 0 4).trans (by omega)
  simp only [scaleX, scaleY, ← BitVec.toNat_inj, hhigh, hlow]
  exact ⟨rfl, rfl⟩

end Sys2Proof.Machine

/-! PROOFS. Lines: what the vector commands draw (O17) and where they leave the cursor (O16), the points of a line (O18), and
the source's line (O20). -/

namespace Sys2Proof.Machine

/-! ### The state after a vector command -/

/-- The accesses of a line plot its points; what follows the plots writes registers only (R270). -/
theorem draws_lineMicros (sy sx a : BitVec 1) (m : Nat × Nat) {g : Gdp} {s : State} (l : Latch)
    (hx : cursorX g = cursorX s.gdp) (hy : cursorY g = cursorY s.gdp) :
    Draws s (accesses (lineMicros sy sx a m g s) (l, s)).2 (vectorPoints s.gdp sy sx a m) := by
  have hpoints : vectorPoints g sy sx a m = vectorPoints s.gdp sy sx a m := by simp only [vectorPoints, hx, hy]
  have hplot := draws_plotAll (vectorPoints s.gdp sy sx a m) (l, s)
  rw [lineMicros, hpoints, List.append_assoc, accesses_append]
  generalize accesses (plotAll _) (l, s) = c at hplot ⊢
  exact hplot

/-- The instruction draws the line of the magnitudes `m`: its points are plotted, the cursor is left at its end with the
busy bits clear, and nothing else changes (R270, R276, R303). -/
def DrawsLine (i : Instr) (s : State) (sy sx a : BitVec 1) (m : Nat × Nat) : Prop :=
  ∃ fb, exec i s = .next ((s.withFb fb).withGdp (afterVector s sy sx a m)) ∧
    Draws s ((s.withFb fb).withGdp (afterVector s sy sx a m)) (vectorPoints s.gdp sy sx a m)

/-- A command that reads the cursor and makes the accesses of a line draws it. -/
theorem DrawsLine.of_lineMicros {i : Instr} {s : State} {sy sx a : BitVec 1} {m : Nat × Nat} {rs : List Reg}
    (hr : rs = vecRegs ∨ rs = svecRegs ∨ rs = charRegs)
    (h : exec i s = .next (accesses (lineMicros sy sx a m (readOperands s rs).gdp s) (readOperands s rs, s)).2) :
    DrawsLine i s sy sx a m := by
  obtain ⟨hx, hy⟩ := readOperands_cursor s hr
  obtain ⟨fb, hend⟩ := accesses_lineMicros sy sx a m (readOperands s rs) hx hy
  have hdraws := draws_lineMicros sy sx a m (readOperands s rs) hx hy
  rw [hend] at h hdraws
  exact ⟨fb, h, hdraws⟩

theorem drawsLine_vec (sy sx a : BitVec 1) (s : State) :
    DrawsLine (.vec sy sx a) s sy sx a (s.gdp.deltax.toNat, s.gdp.deltay.toNat) := .of_lineMicros (.inl rfl) rfl

theorem drawsLine_vecEq (sy sx a : BitVec 1) (s : State) :
    DrawsLine (.vecEq sy sx a) s sy sx a
      (max s.gdp.deltax.toNat s.gdp.deltay.toNat, max s.gdp.deltax.toNat s.gdp.deltay.toNat) :=
  .of_lineMicros (.inl rfl) rfl

theorem drawsLine_svec (dx dy : BitVec 2) (sy sx a : BitVec 1) (s : State) :
    DrawsLine (.svec dx dy sy sx a) s sy sx a (dx.toNat, dy.toNat) := .of_lineMicros (.inr (.inl rfl)) rfl

theorem DrawsLine.exists_fb {i : Instr} {s : State} {sy sx a : BitVec 1} {m : Nat × Nat} (h : DrawsLine i s sy sx a m) :
    ∃ fb, exec i s = .next ((s.withFb fb).withGdp (afterVector s sy sx a m)) := h.imp fun _ => And.left

theorem DrawsLine.exists_draws {i : Instr} {s : State} {sy sx a : BitVec 1} {m : Nat × Nat}
    (h : DrawsLine i s sy sx a m) : ∃ t, exec i s = .next t ∧ Draws s t (vectorPoints s.gdp sy sx a m) :=
  h.elim fun _ hfb => ⟨_, hfb⟩

/-- Settles O16: each vector command draws one line, whose last point is its end. -/
theorem vectorsMoveTheCursor : Obligations.VectorsMoveTheCursor := fun dx dy sy sx a s =>
  ⟨(drawsLine_vec sy sx a s).exists_fb, (drawsLine_vecEq sy sx a s).exists_fb, (drawsLine_svec dx dy sy sx a s).exists_fb,
    fun _ => linePoints_getLast? ..⟩

/-- Settles O17: each vector command draws one line, and its plots are of this line's points. -/
theorem vectorsDrawTheirPoints : Obligations.VectorsDrawTheirPoints := fun dx dy sy sx a s =>
  ⟨(drawsLine_vec sy sx a s).exists_draws, (drawsLine_vecEq sy sx a s).exists_draws,
    (drawsLine_svec dx dy sy sx a s).exists_draws⟩

/-! ### The points of a line -/

theorem linePoints_of_le (x0 y0 : Int) {dx dy : Nat} (stx sty : Int) (h : dy ≤ dx) :
    linePoints x0 y0 dx dy stx sty = (x0, y0) :: xMajorPoints dx dy stx sty dx x0 y0 ((dx / 2 : Nat) : Int) := by
  rw [linePoints, if_pos h, max_eq_left h]

/-- A line with y the major axis is one with x the major axis, with the axes exchanged. -/
theorem linePoints_eq_swap (x0 y0 : Int) {dx dy : Nat} (stx sty : Int) (h : dx < dy) :
    linePoints x0 y0 dx dy stx sty = (linePoints y0 x0 dy dx sty stx).map Prod.swap := by
  rw [linePoints_of_le y0 x0 sty stx h.le, linePoints, if_neg h.not_ge, max_eq_right h.le, yMajorPoints_eq_swap]
  rfl

theorem linePoints_length (x0 y0 : Int) (dx dy : Nat) (stx sty : Int) :
    (linePoints x0 y0 dx dy stx sty).length = max dx dy + 1 := by
  rw [linePoints, List.length_cons]
  split
  · rw [xMajorPoints_length]
  · rw [yMajorPoints_length]

/-- Every step advances the major axis by one (R270). -/
theorem xMajorPoints_map_fst (dx dy : Nat) (stx sty : Int) (n : Nat) :
    ∀ x y err : Int, ((x, y) :: xMajorPoints dx dy stx sty n x y err).map Prod.fst =
      (List.range (n + 1)).map fun k : Nat => x + stx * k := by
  induction n with
  | zero => intros; simp [xMajorPoints]
  | succ n ih =>
    intro x y err
    have hshift : (fun k : Nat => x + stx * k) ∘ Nat.succ = fun k : Nat => x + stx + stx * k := by
      funext k
      simp only [Function.comp_apply]
      push_cast
      ring
    rw [List.range_succ_eq_map, List.map_cons (l := List.map ..), List.map_map, hshift, List.map_cons, xMajorPoints]
    split <;> rw [ih] <;> simp

/-- With x the major axis the points differ in x (R275). -/
theorem linePoints_nodup_of_le (x0 y0 : Int) {dx dy : Nat} {stx : Int} (sty : Int) (hx : stx ≠ 0) (hd : dy ≤ dx) :
    (linePoints x0 y0 dx dy stx sty).Nodup := by
  have hinj : Function.Injective fun k : Nat => x0 + stx * (k : Int) := fun j k hjk =>
    Int.ofNat_inj.mp (mul_left_cancel₀ hx (add_left_cancel hjk))
  refine .of_map Prod.fst ?_
  rw [linePoints_of_le x0 y0 stx sty hd, xMajorPoints_map_fst]
  exact List.nodup_range.map hinj

theorem linePoints_nodup (x0 y0 : Int) (dx dy : Nat) {stx sty : Int} (hx : stx ≠ 0) (hy : sty ≠ 0) :
    (linePoints x0 y0 dx dy stx sty).Nodup := by
  rcases le_or_gt dy dx with hd | hd
  · exact linePoints_nodup_of_le x0 y0 sty hx hd
  · rw [linePoints_eq_swap x0 y0 stx sty hd]
    exact (linePoints_nodup_of_le y0 x0 stx hy hd.le).map Prod.swap_injective

theorem stepOf_ne_zero (sign : BitVec 1) : stepOf sign ≠ 0 := by
  unfold stepOf
  split <;> decide

/-- Settles O18: a step of either sign moves the major coordinate, so that no point comes twice. -/
theorem linePointsAreDistinct : Obligations.LinePointsAreDistinct := fun x0 y0 dx dy sx sy =>
  ⟨linePoints_length .., linePoints_nodup x0 y0 dx dy (stepOf_ne_zero sx) (stepOf_ne_zero sy), rfl⟩

/-! ### The source's line -/

/-- With no minor magnitude the minor coordinate stays (R270). -/
theorem snd_of_mem_xMajorPoints (dx : Nat) (stx sty : Int) {y : Int} (n : Nat) :
    ∀ x err : Int, 0 ≤ err → ∀ q ∈ xMajorPoints dx 0 stx sty n x y err, q.2 = y := by
  induction n with
  | zero => exact fun _ _ _ _ hq => nomatch hq
  | succ n ih =>
    intro x err herr
    rw [xMajorPoints, Nat.cast_zero, sub_zero, if_neg (not_lt.mpr herr)]
    exact List.forall_mem_cons.mpr ⟨rfl, ih _ _ herr⟩

/-- The points of a horizontal line to the right: one row, from the start to the end (R270). -/
theorem mem_linePoints_horizontal (x0 y0 : Int) (dx : Nat) (sty : Int) (q : Point) :
    q ∈ linePoints x0 y0 dx 0 1 sty ↔ x0 ≤ q.1 ∧ q.1 ≤ x0 + dx ∧ q.2 = y0 := by
  rw [linePoints_of_le x0 y0 1 sty (Nat.zero_le dx)]
  have hcolumns := xMajorPoints_map_fst dx 0 1 sty dx x0 y0 ((dx / 2 : Nat) : Int)
  have hrow : ∀ q ∈ (x0, y0) :: xMajorPoints dx 0 1 sty dx x0 y0 ((dx / 2 : Nat) : Int), q.2 = y0 :=
    List.forall_mem_cons.mpr ⟨rfl, snd_of_mem_xMajorPoints dx 1 sty dx x0 _ (Int.natCast_nonneg _)⟩
  constructor
  · intro hq
    have hfst := List.mem_map_of_mem (f := Prod.fst) hq
    rw [hcolumns, List.mem_map] at hfst
    obtain ⟨k, hk, hkq⟩ := hfst
    have hlast := List.mem_range.mp hk
    exact ⟨by omega, by omega, hrow q hq⟩
  · rintro ⟨h0, h1, h2⟩
    have hfst : q.1 ∈ (List.range (dx + 1)).map fun k : Nat => x0 + 1 * (k : Int) :=
      List.mem_map.mpr ⟨(q.1 - x0).toNat, List.mem_range.mpr (by omega), by omega⟩
    rw [← hcolumns] at hfst
    obtain ⟨q', hq', hq'q⟩ := List.mem_map.mp hfst
    rwa [show q = q' from Prod.ext hq'q.symm (h2.trans (hrow q' hq').symm)]

/-- Both bytes are the vector to the right: the forced axis of 0x10 has magnitude 0 already (R273, R280). -/
theorem decodeCommand_sourceLine {b : Byte} (hb : b = 0x11 ∨ b = 0x10) :
    ∃ a, decodeCommand b = .vec 0 0 a ∧ forceAxis 0 0 a (16, 0) = (16, 0) := by
  rcases hb with rfl | rfl
  · exact ⟨1, rfl, rfl⟩
  · exact ⟨0, rfl, rfl⟩

/-- Settles O20: both bytes draw the line of 16 steps to the right, and on an unset page in mode 11 the set pixels are its
points. -/
theorem sourceLineSetsSeventeenPixels : Obligations.SourceLineSetsSeventeenPixels := by
  intro s hmode hdx hdy hx hy hunset b hb
  obtain ⟨a, hdecode, hforce⟩ := decodeCommand_sourceLine hb
  have hm : (s.gdp.deltax.toNat, s.gdp.deltay.toNat) = (16, 0) := by rw [hdx, hdy]; rfl
  have hendX : lineEndX s 0 0 a (16, 0) = 116 := by rw [lineEndX, hforce, hx]; rfl
  have hendY : lineEndY s 0 0 a (16, 0) = 100 := by rw [lineEndY, hforce, hy]; rfl
  have hpoints : vectorPoints s.gdp 0 0 a (16, 0) = linePoints 100 100 16 0 1 1 := by
    rw [vectorPoints, hforce, hx, hy]; rfl
  obtain ⟨fb, hexec, hpixel, -⟩ := drawsLine_vec 0 0 a s
  rw [hm] at hexec hpixel
  refine ⟨_, by rw [hdecode, hexec], ?_, ?_, fun x y => ?_⟩
  · exact (cursor_cursorAfter _ _ _).1.trans (congrArg (BitVec.ofInt 16) hendX)
  · exact (cursor_cursorAfter _ _ _).2.trans (congrArg (BitVec.ofInt 16) hendY)
  · rw [hpixel, if_pos rfl, hmode, hunset, drawn, Bool.or_false, hits, decide_eq_true_iff, hpoints,
      mem_linePoints_horizontal]
    omega

end Sys2Proof.Machine

/-! PROOFS. One plot (O26), and the inert modes, in which the vectors and the characters write nothing (O27). -/

namespace Sys2Proof.Machine

/-- Settles O26: a point off the screen has no accesses; one plot plots its point, and changes at most the framebuffer. -/
theorem plotChangesOnePixel : Obligations.PlotChangesOnePixel := fun q l s =>
  ⟨fun hq => if_neg (mt (onScreen_iff q).mp hq), draws_plotMicros q (l, s), accesses_plotMicros q (l, s)⟩

/-! ### The inert modes -/

/-- The modes that draw or erase have CTRL1 bit 0 set (R291). -/
theorem modeOf_eq_inert {c : Byte} (h : c.getLsbD 0 = false) : modeOf c = .inert := by
  have hlow : (c.extractLsb' 0 2).getLsbD 0 = false := by rw [BitVec.getLsbD_extractLsb', Nat.add_zero, h, Bool.and_false]
  have hne : ∀ v : BitVec 2, v.getLsbD 0 = true → c.extractLsb' 0 2 ≠ v := by
    rintro _ hv rfl
    rw [hlow] at hv
    cases hv
  rw [modeOf, if_neg (hne _ rfl), if_neg (hne _ rfl)]

theorem accesses_plotMicros_of_inert (q : Point) {c : Latch × State} (h : modeOf c.2.gdp.ctrl1 = .inert) :
    (accesses (plotMicros q) c).2 = c.2 := by
  rw [plotMicros_state, h]
  exact ite_self _

/-- No plot of a list changes the mode, so the plots after it are inert too. -/
theorem accesses_plotAll_of_inert (qs : List Point) {c : Latch × State} (h : modeOf c.2.gdp.ctrl1 = .inert) :
    (accesses (plotAll qs) c).2 = c.2 := by
  induction qs generalizing c with
  | nil => rfl
  | cons q qs ih =>
    have hplot := accesses_plotMicros_of_inert q h
    rw [plotAll, List.flatMap_cons, accesses_append, ← plotAll, ih (by rw [hplot, h]), hplot]

/-- What a line's accesses write after its plots are registers only (R270). -/
theorem accesses_lineMicros_fb (sy sx a : BitVec 1) (m : Nat × Nat) (g : Gdp) (s : State) (c : Latch × State) :
    (accesses (lineMicros sy sx a m g s) c).2.fb = (accesses (plotAll (vectorPoints g sy sx a m)) c).2.fb := by
  rw [lineMicros, List.append_assoc, accesses_append]
  generalize accesses (plotAll _) c = d
  rfl

/-- A command that makes the accesses of a line writes nothing in an inert mode. -/
theorem exec_line_of_inert {i : Instr} {s : State} {sy sx a : BitVec 1} {m : Nat × Nat} {g : Gdp} {l : Latch}
    (hmode : modeOf s.gdp.ctrl1 = .inert) (hexec : exec i s = .next (accesses (lineMicros sy sx a m g s) (l, s)).2) :
    ∃ t, exec i s = .next t ∧ t.fb = s.fb :=
  ⟨_, hexec, by rw [accesses_lineMicros_fb, accesses_plotAll_of_inert _ hmode]⟩

theorem characterFb_of_inert (a : Byte) {s : State} (h : modeOf s.gdp.ctrl1 = .inert) : characterFb a s = s.fb := by
  rw [characterFb, accesses_plotAll_of_inert _ h]

/-- Settles O27: with CTRL1 bit 0 clear every plot is inert, and beside its plots a vector or a character writes registers
only. -/
theorem inertModesWriteNothing : Obligations.InertModesWriteNothing := by
  intro dx dy sy sx a g s hbit i hi
  have hmode := modeOf_eq_inert hbit
  rcases hi with rfl | rfl | rfl | rfl | rfl | rfl
  · exact exec_line_of_inert hmode rfl
  · exact exec_line_of_inert hmode rfl
  · exact exec_line_of_inert hmode rfl
  · exact ⟨_, exec_char20 g s, characterFb_of_inert g hmode⟩
  · exact ⟨_, exec_char40 g s, characterFb_of_inert g hmode⟩
  · exact ⟨_, exec_cursor s, characterFb_of_inert 0x80 hmode⟩

end Sys2Proof.Machine

/-! PROOFS. The start state (O6), the busy clear that ends every command (O15), the host interface (O39 to O41), the
order of the handlers (O54), and no stop in the block (O59). -/

namespace Sys2Proof.Machine

/-! ### The start state -/

/-- A byte of FONT after the load is the parameter's; past the parameter's end it is 0 (R57, R355). -/
theorem fontByte_loadTables (p : Params) {g c : Nat} (hg : g < 97) (hc : c < 5) :
    fontByte (loadTables p) g c = p.font.getD (5 * g + c) 0 := by
  have hlt : 5 * g + c < fontBytes := by
    unfold fontBytes
    omega
  have hread : memRead (loadTables p).font (5 * g + c) = (p.font.take fontBytes).getD (5 * g + c) 0 := by
    rw [loadTables, memRead_memLoad, Nat.sub_zero]
    split
    · rfl
    · exact (List.getD_eq_default _ _ (by omega)).symm
  rw [fontByte, hread, List.getD_eq_getElem?_getD, List.getElem?_take_of_lt hlt, ← List.getD_eq_getElem?_getD]

/-- The sequence BUILD leaves starts with the flattened format (R151). -/
theorem take_seqLen_bootState (s : State) :
    (bootState s).sync.seq.take (bootState s).sync.seqLen = flatWords s.par.scanFormat := List.take_left

/-- Settles O6: the boot of a format that passes the checks is `bootState`, whose fields are those of the table. -/
theorem bootLeavesTheStartState : Obligations.BootLeavesTheStartState := by
  intro s hb hf
  have hstep : step s = .next (bootState s) := by simp only [step, hb, bootStep, hf]
  exact ⟨bootState s, hstep, rfl, rfl,
    ⟨rfl, rfl, rfl, rfl, rfl, rfl, rfl⟩, initPagesel_pages _ _,
    ⟨take_seqLen_bootState s, rfl, rfl, rfl, rfl⟩, ⟨rfl, rfl, rfl⟩, ⟨rfl, rfl, rfl, rfl⟩,
    rfl, rfl, rfl, rfl, rfl, fun _ => rfl, fun _ _ hg hc => fontByte_loadTables s.par hg hc⟩

/-! ### The busy clear at a command's end -/

/-- Accesses whose last is the busy clear, no other writing STATUS (R303). -/
def EndsWithCompletion (p : Params) (ms : List Micro) : Prop :=
  ∃ pre, ms = pre ++ completion p ∧ ∀ m ∈ pre, m.target ≠ some .status

/-- Plots write no register. -/
theorem target_of_mem_plotAll (qs : List Point) : ∀ m ∈ plotAll qs, m.target = none := by
  intro m hm
  obtain ⟨q, -, hm⟩ := List.mem_flatMap.mp hm
  unfold plotMicros at hm
  split at hm
  · simp only [List.mem_cons, List.not_mem_nil, or_false] at hm
    rcases hm with rfl | rfl | rfl | rfl <;> rfl
  · cases hm

/-- Plots, then writes of registers other than STATUS, then the busy clear. -/
theorem endsWithCompletion_plots (p : Params) (qs : List Point) {ms : List Micro}
    (h : ∀ m ∈ ms, m.target ≠ some .status) : EndsWithCompletion p (plotAll qs ++ ms ++ completion p) := by
  refine ⟨_, rfl, List.forall_mem_append.mpr ⟨fun m hm => ?_, h⟩⟩
  rw [target_of_mem_plotAll qs m hm]
  nofun

theorem endsWithCompletion_charMicros (a : Byte) (g : Gdp) (s : State) :
    EndsWithCompletion s.par (charMicros a g s) := by
  refine endsWithCompletion_plots _ _ ?_
  unfold advanceMicros
  split <;> simp [putX, putY, Micro.target]

theorem endsWithCompletion_lineMicros (sy sx a : BitVec 1) (m : Nat × Nat) (g : Gdp) (s : State) :
    EndsWithCompletion s.par (lineMicros sy sx a m g s) :=
  endsWithCompletion_plots _ _ (by simp [putX, putY, Micro.target])

/-- Every command, NOP included, ends with the busy clear (R303). -/
theorem endsWithCompletion_commandMicros {i : Instr} (hi : isCommand i = true) (g : Gdp) (s : State) :
    EndsWithCompletion s.par (commandMicros i g s) := by
  cases i
  case pen | eraser | pendown | penup => exact ⟨[_], rfl, by simp [Micro.target]⟩
  case cls | xyrst | clsxy | reset => exact ⟨_, rfl, by simp [clearPage, zeroCursor, putX, putY, Micro.target]⟩
  case nop08 | nop0B | nop0C => exact ⟨[], rfl, nofun⟩
  case cursor | char20 | char40 => exact endsWithCompletion_charMicros _ g s
  case vec | vecEq | svec => exact endsWithCompletion_lineMicros _ _ _ _ g s
  case pulse | pulseDs | page => cases hi

/-- Accesses that end with the busy clear leave STATUS as it was but for the busy bits. -/
theorem EndsWithCompletion.status {ms : List Micro} {c : Latch × State} (h : EndsWithCompletion c.2.par ms) :
    (accesses ms c).2.gdp.status = busyCleared c.2 := by
  obtain ⟨pre, rfl, hpre⟩ := h
  have hpar : (accesses pre c).2.par = c.2.par := by rw [accesses_only pre c]
  have hstatus : (accesses pre c).2.gdp.status = c.2.gdp.status := accesses_get (q := .status) pre c hpre
  rw [accesses_append, ← hpar, accesses_completion, State.withGdp_gdp]
  dsimp only
  rw [busyCleared, busyCleared, hpar, hstatus]

/-- With the busy bits cleared, `waitdone` waits no longer (R303). -/
theorem notBusy_of_status {s t : State} (hpar : t.par = s.par) (hstatus : t.gdp.status = busyCleared s) :
    notBusy t = true := by
  rw [notBusy, getReg, Gdp.get, hpar, hstatus, busyCleared, BitVec.and_assoc, BitVec.and_comm (~~~_)]
  simp

/-- Settles O15: the accesses of a command end with the busy clear. -/
theorem everyCommandClearsTheBusyBits : Obligations.EveryCommandClearsTheBusyBits := by
  intro i s hi
  have hpar : (runCommand (commandRegs i) (commandMicros i) s).par = s.par := by rw [runCommand_only]
  have hstatus : (runCommand (commandRegs i) (commandMicros i) s).gdp.status = busyCleared s :=
    (endsWithCompletion_commandMicros hi _ s).status
  exact ⟨_, exec_command hi s, hstatus, notBusy_of_status hpar hstatus⟩

/-! ### The page switch -/

/-- PAGESEL after a page switch is the page byte, zero-extended (R43). -/
theorem pageWord_eq_setWidth (disp draw : BitVec 2) (ignored : BitVec 4) :
    pageWord disp draw ignored = (disp ++ draw ++ ignored).setWidth 32 := by
  rw [pageWord, BitVec.append_assoc, BitVec.append_assoc, BitVec.append_assoc]
  simp [BitVec.setWidth_eq_append]

theorem exec_page (disp draw : BitVec 2) (ignored : BitVec 4) (s : State) :
    exec (.page disp draw ignored) s = .next (s.withPagesel (pageWord disp draw ignored)) := rfl

/-- Settles O39: PAGESEL is the page byte zero-extended, and MIRROR's byte is that of its fields. -/
theorem pageSwitchStoresTheByte : Obligations.PageSwitchStoresTheByte := by
  refine ⟨fun disp draw ignored s => ?_, fun s b q hc hq => ?_⟩
  · obtain ⟨hdisp, hdraw, -⟩ := page_fields disp draw ignored
    have hword := pageWord_eq_setWidth disp draw ignored
    refine ⟨_, exec_page disp draw ignored s, rfl, ?_, ?_, hword⟩
    · rw [displayPage, State.withPagesel_pagesel, hword, BitVec.extractLsb'_setWidth_of_le (by decide), hdisp]
    · rw [drawPage, State.withPagesel_pagesel, hword, BitVec.extractLsb'_setWidth_of_le (by decide), hdraw]
  · have hword : pageWord (b.extractLsb' 6 2) (b.extractLsb' 4 2) (b.extractLsb' 0 4) = b.setWidth 32 := by
      rw [pageWord_eq_setWidth, append_page (h := 2) b]
    rw [← hword]
    exact pageStep_idle hc hq

/-! ### The status mirror -/

theorem mirrorStep_of_idle {s : State} (hc : s.cmd = none) : mirrorStep s = mirrorMove s :=
  if_pos (by rw [mirrorEnabled, hc]; rfl)

/-- Settles O40: with CMD idle MIRROR's step is the comparison, and the copy where the flags differ. -/
theorem mirrorCopiesTheVblankFlag : Obligations.MirrorCopiesTheVblankFlag := by
  intro s hc
  have hstep : runMove .mirror s = .next (mirrorMove s) := congrArg Host.Outcome.next (mirrorStep_of_idle hc)
  refine ⟨fun heq => ?_, fun hne => ?_⟩
  · rw [hstep, mirrorMove, if_pos heq]
  · rw [hstep, mirrorMove, if_neg hne]
    rfl

/-! ### Inside a command -/

/-- A CMD step inside a command takes no byte from either queue (R307). -/
theorem cmdStep_queues {s : State} {j : Job} (hj : s.cmd = some j) :
    (cmdStep s).cmdq = s.cmdq ∧ (cmdStep s).pageq = s.pageq := by
  unfold cmdStep
  split
  · rename_i hc
    cases hc.symm.trans hj
  · exact ⟨rfl, rfl⟩
  · exact ⟨rfl, rfl⟩
  · exact ⟨rfl, rfl⟩
  · rename_i m ms l _
    rw [access_only m (l, s)]
    exact ⟨rfl, rfl⟩

/-- Settles O41: the three moves are enabled with CMD idle only, and CMD takes a byte from idle only. -/
theorem nothingOfMirrorFallsInsideACommand : Obligations.NothingOfMirrorFallsInsideACommand := by
  intro s j hj
  refine ⟨?_, ?_, ?_, _, rfl, cmdStep_queues hj⟩
  · exact congrArg Host.Outcome.next (if_neg (by rw [mirrorEnabled, hj]; nofun))
  · simp only [runMove, pageStep, hj]
  · simp only [runMove, cmdRun, hj]

/-! ### The order of the handlers -/

/-- Without an active refill, a line-active event pending enables DATA (R174). -/
theorem dataEnabled_of_no_refill {s : State} (hpending : 0 < s.video.lineActivePending)
    (hfree : s.refill.active = false) : dataEnabled s = true :=
  (dataEnabled_iff s).mpr ⟨hpending, fun ⟨hactive, _⟩ => by cases hfree.symm.trans hactive⟩

/-- A DATA invocation leaves a pending completion pending. -/
theorem syncIrqStep_dataInvoke {s : State} (hirq : s.sync.irqPending = true) :
    syncIrqStep (dataInvoke s) = syncIrq (dataInvoke s) :=
  if_pos (by rw [(dataInvoke_only s).sync_eq, hirq])

/-- Settles O54: the handler that runs last leaves its own count and flag; DATA counts one line from the
other's zero. -/
theorem handlerOrderShows : Obligations.HandlerOrderShows := by
  intro s hirq hpending hfree
  have hsync : syncIrqStep s = syncIrq s := if_pos hirq
  have hafter : dataStep (syncIrq s) = dataInvoke (syncIrq s) :=
    dataStep_of_enabled (dataEnabled_of_no_refill hpending hfree)
  have hbefore : dataStep s = dataInvoke s := dataStep_of_enabled (dataEnabled_of_no_refill hpending hfree)
  rw [hsync, hafter, dataInvoke_video, hbefore, syncIrqStep_dataInvoke hirq]
  exact ⟨⟨rfl, rfl⟩, ⟨rfl, rfl⟩⟩

/-! ### No stop in the block -/

/-- Settles O59: of the block's moves only TG's can be refused, at a reserved descriptor, which the invariant
excludes. -/
theorem nothingInTheBlockStops : Obligations.NothingInTheBlockStops := by
  rintro m s ⟨-, hseq, -⟩ hb hm
  cases h : runMove m s with
  | next t => exact ⟨t, rfl⟩
  | fault f => cases f
  | refused r =>
    rcases runMove_refused h with ⟨-, f, rfl⟩ | ⟨-, htg⟩
    · cases hm
    · obtain ⟨-, w, hw, hbad⟩ := tgStep_refused htg
      obtain ⟨-, htiming⟩ := (sequencerInv_iff s).mp hseq hb
      cases (htiming.word w hw).symm.trans hbad

end Sys2Proof.Machine
